-- ==== Sys2Proof/Word.lean ====
section
/-! DEFINITION. The two word types of the block (00_scope.md R6): the 8-bit data word and the 16-bit address. -/

namespace Sys2Proof

/-- A data word: A, X, Y, SP, P and every memory cell (00_scope.md R6). -/
abbrev Byte := BitVec 8

/-- An address: PC, an effective address, a 16-bit operand (00_scope.md R6). -/
abbrev Word := BitVec 16

end Sys2Proof
end

