-- ==== Sys2Proof/Syntax.lean ====
section
/-! DEFINITION. The syntax of the block's instructions: mnemonics, addressing modes, descriptors and the one
inductive `Instr` (30_encoding.md R93 to R98). A constructor is a documented row of spec/opcode_table.json, named
after its mnemonic and, where a mnemonic has several rows, its addressing mode; its argument is the operand the row's
format carries (R91), at its exact width. The 105 rows of the unimplemented stub are one constructor that carries the
opcode byte (R95, R97; log 25). -/

namespace Sys2Proof

/-- The 56 documented mnemonics (00_scope.md R2) and the stub's `???` (30_encoding.md R95). -/
inductive Mnemonic where
  | adc | sbc | and | ora | eor | bit | asl | lsr | rol | ror | bpl | bmi | bvc | bvs
  | bcc | bcs | bne | beq | brk | cmp | cpx | cpy | dec | inc | dex | dey | inx | iny
  | jmp | jsr | rts | rti | lda | ldx | ldy | sta | stx | sty | pha | php | pla | plp
  | tax | txa | tay | tya | tsx | txs | sec | clc | sed | cld | sei | cli | clv | nop
  | unimplemented
  deriving DecidableEq, Repr

/-- The fourteen addressing modes (30_encoding.md R98). -/
inductive Mode where
  | none | implied | accumulator | immediate | branch
  | zeropage | zeropageX | zeropageY
  | absolute | absoluteX | absoluteY
  | indirect | indirectX | indirectY
  deriving DecidableEq, Repr

/-- The page-cross class of a row (30_encoding.md R96). -/
inductive PageClass where
  | none | read | write | rmw
  deriving DecidableEq, Repr

/-- An instruction descriptor (10_state.md R29). -/
structure Descriptor where
  opcode : Byte
  mnemonic : Mnemonic
  mode : Mode
  length : Nat
  baseCycles : Nat
  pageClass : PageClass
  deriving DecidableEq, Repr

/-- A decoded instruction (10_state.md R30): the descriptor, the address its opcode byte was read from and the raw
operand, 0 where there is none. `d.extra` is computed where it is charged (log 24). -/
structure Decoded extends Descriptor where
  address : Word
  operand : Word
  deriving DecidableEq, Repr

/-- The instructions: the 151 documented rows and the stub (30_encoding.md R96, R97). -/
inductive Instr where
  | adcIndirectX (zp : Byte)
  | adcZeropage (zp : Byte)
  | adcImmediate (imm : Byte)
  | adcAbsolute (addr : Word)
  | adcIndirectY (zp : Byte)
  | adcZeropageX (zp : Byte)
  | adcAbsoluteY (addr : Word)
  | adcAbsoluteX (addr : Word)
  | sbcIndirectX (zp : Byte)
  | sbcZeropage (zp : Byte)
  | sbcImmediate (imm : Byte)
  | sbcAbsolute (addr : Word)
  | sbcIndirectY (zp : Byte)
  | sbcZeropageX (zp : Byte)
  | sbcAbsoluteY (addr : Word)
  | sbcAbsoluteX (addr : Word)
  | andIndirectX (zp : Byte)
  | andZeropage (zp : Byte)
  | andImmediate (imm : Byte)
  | andAbsolute (addr : Word)
  | andIndirectY (zp : Byte)
  | andZeropageX (zp : Byte)
  | andAbsoluteY (addr : Word)
  | andAbsoluteX (addr : Word)
  | oraIndirectX (zp : Byte)
  | oraZeropage (zp : Byte)
  | oraImmediate (imm : Byte)
  | oraAbsolute (addr : Word)
  | oraIndirectY (zp : Byte)
  | oraZeropageX (zp : Byte)
  | oraAbsoluteY (addr : Word)
  | oraAbsoluteX (addr : Word)
  | eorIndirectX (zp : Byte)
  | eorZeropage (zp : Byte)
  | eorImmediate (imm : Byte)
  | eorAbsolute (addr : Word)
  | eorIndirectY (zp : Byte)
  | eorZeropageX (zp : Byte)
  | eorAbsoluteY (addr : Word)
  | eorAbsoluteX (addr : Word)
  | bitZeropage (zp : Byte)
  | bitAbsolute (addr : Word)
  | aslZeropage (zp : Byte)
  | aslAccumulator
  | aslAbsolute (addr : Word)
  | aslZeropageX (zp : Byte)
  | aslAbsoluteX (addr : Word)
  | lsrZeropage (zp : Byte)
  | lsrAccumulator
  | lsrAbsolute (addr : Word)
  | lsrZeropageX (zp : Byte)
  | lsrAbsoluteX (addr : Word)
  | rolZeropage (zp : Byte)
  | rolAccumulator
  | rolAbsolute (addr : Word)
  | rolZeropageX (zp : Byte)
  | rolAbsoluteX (addr : Word)
  | rorZeropage (zp : Byte)
  | rorAccumulator
  | rorAbsolute (addr : Word)
  | rorZeropageX (zp : Byte)
  | rorAbsoluteX (addr : Word)
  | bpl (disp : Byte)
  | bmi (disp : Byte)
  | bvc (disp : Byte)
  | bvs (disp : Byte)
  | bcc (disp : Byte)
  | bcs (disp : Byte)
  | bne (disp : Byte)
  | beq (disp : Byte)
  | brk
  | cmpIndirectX (zp : Byte)
  | cmpZeropage (zp : Byte)
  | cmpImmediate (imm : Byte)
  | cmpAbsolute (addr : Word)
  | cmpIndirectY (zp : Byte)
  | cmpZeropageX (zp : Byte)
  | cmpAbsoluteY (addr : Word)
  | cmpAbsoluteX (addr : Word)
  | cpxImmediate (imm : Byte)
  | cpxZeropage (zp : Byte)
  | cpxAbsolute (addr : Word)
  | cpyImmediate (imm : Byte)
  | cpyZeropage (zp : Byte)
  | cpyAbsolute (addr : Word)
  | decZeropage (zp : Byte)
  | decAbsolute (addr : Word)
  | decZeropageX (zp : Byte)
  | decAbsoluteX (addr : Word)
  | incZeropage (zp : Byte)
  | incAbsolute (addr : Word)
  | incZeropageX (zp : Byte)
  | incAbsoluteX (addr : Word)
  | dex
  | dey
  | inx
  | iny
  | jmpAbsolute (addr : Word)
  | jmpIndirect (ptr : Word)
  | jsr (addr : Word)
  | rts
  | rti
  | ldaIndirectX (zp : Byte)
  | ldaZeropage (zp : Byte)
  | ldaImmediate (imm : Byte)
  | ldaAbsolute (addr : Word)
  | ldaIndirectY (zp : Byte)
  | ldaZeropageX (zp : Byte)
  | ldaAbsoluteY (addr : Word)
  | ldaAbsoluteX (addr : Word)
  | ldxImmediate (imm : Byte)
  | ldxZeropage (zp : Byte)
  | ldxAbsolute (addr : Word)
  | ldxZeropageY (zp : Byte)
  | ldxAbsoluteY (addr : Word)
  | ldyImmediate (imm : Byte)
  | ldyZeropage (zp : Byte)
  | ldyAbsolute (addr : Word)
  | ldyZeropageX (zp : Byte)
  | ldyAbsoluteX (addr : Word)
  | staIndirectX (zp : Byte)
  | staZeropage (zp : Byte)
  | staAbsolute (addr : Word)
  | staIndirectY (zp : Byte)
  | staZeropageX (zp : Byte)
  | staAbsoluteY (addr : Word)
  | staAbsoluteX (addr : Word)
  | stxZeropage (zp : Byte)
  | stxAbsolute (addr : Word)
  | stxZeropageY (zp : Byte)
  | styZeropage (zp : Byte)
  | styAbsolute (addr : Word)
  | styZeropageX (zp : Byte)
  | pha
  | php
  | pla
  | plp
  | tax
  | txa
  | tay
  | tya
  | tsx
  | txs
  | sec
  | clc
  | sed
  | cld
  | sei
  | cli
  | clv
  | nop
  /-- An unfilled slot, by its opcode byte (30_encoding.md R95, R97). -/
  | unimplemented (opcode : Byte)
  deriving DecidableEq, Repr

end Sys2Proof
end

