-- ==== Sys2Proof/Decode.lean ====
section
/-! DEFINITION. The instruction table, the decoder and the encoder (30_encoding.md R90 to R97, R110, R111), with the
byte-order and sign-extension helpers every later file uses (00_scope.md R8). -/

namespace Sys2Proof

/-- `hi ++ lo`, the 16-bit value hi * 256 + lo (00_scope.md R8). -/
def wordOf (hi lo : Byte) : Word := hi ++ lo

/-- Bits 7 to 0 of a word. -/
def loByte (w : Word) : Byte := w.extractLsb' 0 8

/-- Bits 15 to 8 of a word: the page of an address (00_scope.md R8, glossary). -/
def hiByte (w : Word) : Byte := w.extractLsb' 8 8

/-- A byte as a 16-bit number, the value unchanged (00_scope.md R8). -/
def zext16 (v : Byte) : Word := v.setWidth 16

/-- A byte read as two's complement and widened to 16 bits (00_scope.md R8). -/
def sext16 (v : Byte) : Word := v.signExtend 16

/-- The row of an instruction in the table of 30_encoding.md R96 (R95 for the stub): opcode, mnemonic, mode, length,
base cycles and page-cross class, with the raw operand of R91.
PRESUMED by the spec: the standard NMOS table, of which the source gives 0x69 and 0x00 alone; unsafe (log 10). -/
def Instr.row (i : Instr) : Descriptor × Word :=
  match i with
  | .adcIndirectX zp => (⟨0x61#8, .adc, .indirectX, 2, 6, .none⟩, zext16 zp)
  | .adcZeropage zp => (⟨0x65#8, .adc, .zeropage, 2, 3, .none⟩, zext16 zp)
  | .adcImmediate imm => (⟨0x69#8, .adc, .immediate, 2, 2, .none⟩, zext16 imm)
  | .adcAbsolute addr => (⟨0x6D#8, .adc, .absolute, 3, 4, .none⟩, addr)
  | .adcIndirectY zp => (⟨0x71#8, .adc, .indirectY, 2, 5, .read⟩, zext16 zp)
  | .adcZeropageX zp => (⟨0x75#8, .adc, .zeropageX, 2, 4, .none⟩, zext16 zp)
  | .adcAbsoluteY addr => (⟨0x79#8, .adc, .absoluteY, 3, 4, .read⟩, addr)
  | .adcAbsoluteX addr => (⟨0x7D#8, .adc, .absoluteX, 3, 4, .read⟩, addr)
  | .sbcIndirectX zp => (⟨0xE1#8, .sbc, .indirectX, 2, 6, .none⟩, zext16 zp)
  | .sbcZeropage zp => (⟨0xE5#8, .sbc, .zeropage, 2, 3, .none⟩, zext16 zp)
  | .sbcImmediate imm => (⟨0xE9#8, .sbc, .immediate, 2, 2, .none⟩, zext16 imm)
  | .sbcAbsolute addr => (⟨0xED#8, .sbc, .absolute, 3, 4, .none⟩, addr)
  | .sbcIndirectY zp => (⟨0xF1#8, .sbc, .indirectY, 2, 5, .read⟩, zext16 zp)
  | .sbcZeropageX zp => (⟨0xF5#8, .sbc, .zeropageX, 2, 4, .none⟩, zext16 zp)
  | .sbcAbsoluteY addr => (⟨0xF9#8, .sbc, .absoluteY, 3, 4, .read⟩, addr)
  | .sbcAbsoluteX addr => (⟨0xFD#8, .sbc, .absoluteX, 3, 4, .read⟩, addr)
  | .andIndirectX zp => (⟨0x21#8, .and, .indirectX, 2, 6, .none⟩, zext16 zp)
  | .andZeropage zp => (⟨0x25#8, .and, .zeropage, 2, 3, .none⟩, zext16 zp)
  | .andImmediate imm => (⟨0x29#8, .and, .immediate, 2, 2, .none⟩, zext16 imm)
  | .andAbsolute addr => (⟨0x2D#8, .and, .absolute, 3, 4, .none⟩, addr)
  | .andIndirectY zp => (⟨0x31#8, .and, .indirectY, 2, 5, .read⟩, zext16 zp)
  | .andZeropageX zp => (⟨0x35#8, .and, .zeropageX, 2, 4, .none⟩, zext16 zp)
  | .andAbsoluteY addr => (⟨0x39#8, .and, .absoluteY, 3, 4, .read⟩, addr)
  | .andAbsoluteX addr => (⟨0x3D#8, .and, .absoluteX, 3, 4, .read⟩, addr)
  | .oraIndirectX zp => (⟨0x01#8, .ora, .indirectX, 2, 6, .none⟩, zext16 zp)
  | .oraZeropage zp => (⟨0x05#8, .ora, .zeropage, 2, 3, .none⟩, zext16 zp)
  | .oraImmediate imm => (⟨0x09#8, .ora, .immediate, 2, 2, .none⟩, zext16 imm)
  | .oraAbsolute addr => (⟨0x0D#8, .ora, .absolute, 3, 4, .none⟩, addr)
  | .oraIndirectY zp => (⟨0x11#8, .ora, .indirectY, 2, 5, .read⟩, zext16 zp)
  | .oraZeropageX zp => (⟨0x15#8, .ora, .zeropageX, 2, 4, .none⟩, zext16 zp)
  | .oraAbsoluteY addr => (⟨0x19#8, .ora, .absoluteY, 3, 4, .read⟩, addr)
  | .oraAbsoluteX addr => (⟨0x1D#8, .ora, .absoluteX, 3, 4, .read⟩, addr)
  | .eorIndirectX zp => (⟨0x41#8, .eor, .indirectX, 2, 6, .none⟩, zext16 zp)
  | .eorZeropage zp => (⟨0x45#8, .eor, .zeropage, 2, 3, .none⟩, zext16 zp)
  | .eorImmediate imm => (⟨0x49#8, .eor, .immediate, 2, 2, .none⟩, zext16 imm)
  | .eorAbsolute addr => (⟨0x4D#8, .eor, .absolute, 3, 4, .none⟩, addr)
  | .eorIndirectY zp => (⟨0x51#8, .eor, .indirectY, 2, 5, .read⟩, zext16 zp)
  | .eorZeropageX zp => (⟨0x55#8, .eor, .zeropageX, 2, 4, .none⟩, zext16 zp)
  | .eorAbsoluteY addr => (⟨0x59#8, .eor, .absoluteY, 3, 4, .read⟩, addr)
  | .eorAbsoluteX addr => (⟨0x5D#8, .eor, .absoluteX, 3, 4, .read⟩, addr)
  | .bitZeropage zp => (⟨0x24#8, .bit, .zeropage, 2, 3, .none⟩, zext16 zp)
  | .bitAbsolute addr => (⟨0x2C#8, .bit, .absolute, 3, 4, .none⟩, addr)
  | .aslZeropage zp => (⟨0x06#8, .asl, .zeropage, 2, 5, .none⟩, zext16 zp)
  | .aslAccumulator => (⟨0x0A#8, .asl, .accumulator, 1, 2, .none⟩, 0)
  | .aslAbsolute addr => (⟨0x0E#8, .asl, .absolute, 3, 6, .none⟩, addr)
  | .aslZeropageX zp => (⟨0x16#8, .asl, .zeropageX, 2, 6, .none⟩, zext16 zp)
  | .aslAbsoluteX addr => (⟨0x1E#8, .asl, .absoluteX, 3, 7, .rmw⟩, addr)
  | .lsrZeropage zp => (⟨0x46#8, .lsr, .zeropage, 2, 5, .none⟩, zext16 zp)
  | .lsrAccumulator => (⟨0x4A#8, .lsr, .accumulator, 1, 2, .none⟩, 0)
  | .lsrAbsolute addr => (⟨0x4E#8, .lsr, .absolute, 3, 6, .none⟩, addr)
  | .lsrZeropageX zp => (⟨0x56#8, .lsr, .zeropageX, 2, 6, .none⟩, zext16 zp)
  | .lsrAbsoluteX addr => (⟨0x5E#8, .lsr, .absoluteX, 3, 7, .rmw⟩, addr)
  | .rolZeropage zp => (⟨0x26#8, .rol, .zeropage, 2, 5, .none⟩, zext16 zp)
  | .rolAccumulator => (⟨0x2A#8, .rol, .accumulator, 1, 2, .none⟩, 0)
  | .rolAbsolute addr => (⟨0x2E#8, .rol, .absolute, 3, 6, .none⟩, addr)
  | .rolZeropageX zp => (⟨0x36#8, .rol, .zeropageX, 2, 6, .none⟩, zext16 zp)
  | .rolAbsoluteX addr => (⟨0x3E#8, .rol, .absoluteX, 3, 7, .rmw⟩, addr)
  | .rorZeropage zp => (⟨0x66#8, .ror, .zeropage, 2, 5, .none⟩, zext16 zp)
  | .rorAccumulator => (⟨0x6A#8, .ror, .accumulator, 1, 2, .none⟩, 0)
  | .rorAbsolute addr => (⟨0x6E#8, .ror, .absolute, 3, 6, .none⟩, addr)
  | .rorZeropageX zp => (⟨0x76#8, .ror, .zeropageX, 2, 6, .none⟩, zext16 zp)
  | .rorAbsoluteX addr => (⟨0x7E#8, .ror, .absoluteX, 3, 7, .rmw⟩, addr)
  | .bpl disp => (⟨0x10#8, .bpl, .branch, 2, 2, .none⟩, zext16 disp)
  | .bmi disp => (⟨0x30#8, .bmi, .branch, 2, 2, .none⟩, zext16 disp)
  | .bvc disp => (⟨0x50#8, .bvc, .branch, 2, 2, .none⟩, zext16 disp)
  | .bvs disp => (⟨0x70#8, .bvs, .branch, 2, 2, .none⟩, zext16 disp)
  | .bcc disp => (⟨0x90#8, .bcc, .branch, 2, 2, .none⟩, zext16 disp)
  | .bcs disp => (⟨0xB0#8, .bcs, .branch, 2, 2, .none⟩, zext16 disp)
  | .bne disp => (⟨0xD0#8, .bne, .branch, 2, 2, .none⟩, zext16 disp)
  | .beq disp => (⟨0xF0#8, .beq, .branch, 2, 2, .none⟩, zext16 disp)
  | .brk => (⟨0x00#8, .brk, .implied, 1, 7, .none⟩, 0)
  | .cmpIndirectX zp => (⟨0xC1#8, .cmp, .indirectX, 2, 6, .none⟩, zext16 zp)
  | .cmpZeropage zp => (⟨0xC5#8, .cmp, .zeropage, 2, 3, .none⟩, zext16 zp)
  | .cmpImmediate imm => (⟨0xC9#8, .cmp, .immediate, 2, 2, .none⟩, zext16 imm)
  | .cmpAbsolute addr => (⟨0xCD#8, .cmp, .absolute, 3, 4, .none⟩, addr)
  | .cmpIndirectY zp => (⟨0xD1#8, .cmp, .indirectY, 2, 5, .read⟩, zext16 zp)
  | .cmpZeropageX zp => (⟨0xD5#8, .cmp, .zeropageX, 2, 4, .none⟩, zext16 zp)
  | .cmpAbsoluteY addr => (⟨0xD9#8, .cmp, .absoluteY, 3, 4, .read⟩, addr)
  | .cmpAbsoluteX addr => (⟨0xDD#8, .cmp, .absoluteX, 3, 4, .read⟩, addr)
  | .cpxImmediate imm => (⟨0xE0#8, .cpx, .immediate, 2, 2, .none⟩, zext16 imm)
  | .cpxZeropage zp => (⟨0xE4#8, .cpx, .zeropage, 2, 3, .none⟩, zext16 zp)
  | .cpxAbsolute addr => (⟨0xEC#8, .cpx, .absolute, 3, 4, .none⟩, addr)
  | .cpyImmediate imm => (⟨0xC0#8, .cpy, .immediate, 2, 2, .none⟩, zext16 imm)
  | .cpyZeropage zp => (⟨0xC4#8, .cpy, .zeropage, 2, 3, .none⟩, zext16 zp)
  | .cpyAbsolute addr => (⟨0xCC#8, .cpy, .absolute, 3, 4, .none⟩, addr)
  | .decZeropage zp => (⟨0xC6#8, .dec, .zeropage, 2, 5, .none⟩, zext16 zp)
  | .decAbsolute addr => (⟨0xCE#8, .dec, .absolute, 3, 6, .none⟩, addr)
  | .decZeropageX zp => (⟨0xD6#8, .dec, .zeropageX, 2, 6, .none⟩, zext16 zp)
  | .decAbsoluteX addr => (⟨0xDE#8, .dec, .absoluteX, 3, 7, .rmw⟩, addr)
  | .incZeropage zp => (⟨0xE6#8, .inc, .zeropage, 2, 5, .none⟩, zext16 zp)
  | .incAbsolute addr => (⟨0xEE#8, .inc, .absolute, 3, 6, .none⟩, addr)
  | .incZeropageX zp => (⟨0xF6#8, .inc, .zeropageX, 2, 6, .none⟩, zext16 zp)
  | .incAbsoluteX addr => (⟨0xFE#8, .inc, .absoluteX, 3, 7, .rmw⟩, addr)
  | .dex => (⟨0xCA#8, .dex, .implied, 1, 2, .none⟩, 0)
  | .dey => (⟨0x88#8, .dey, .implied, 1, 2, .none⟩, 0)
  | .inx => (⟨0xE8#8, .inx, .implied, 1, 2, .none⟩, 0)
  | .iny => (⟨0xC8#8, .iny, .implied, 1, 2, .none⟩, 0)
  | .jmpAbsolute addr => (⟨0x4C#8, .jmp, .absolute, 3, 3, .none⟩, addr)
  | .jmpIndirect ptr => (⟨0x6C#8, .jmp, .indirect, 3, 5, .none⟩, ptr)
  | .jsr addr => (⟨0x20#8, .jsr, .absolute, 3, 6, .none⟩, addr)
  | .rts => (⟨0x60#8, .rts, .implied, 1, 6, .none⟩, 0)
  | .rti => (⟨0x40#8, .rti, .implied, 1, 6, .none⟩, 0)
  | .ldaIndirectX zp => (⟨0xA1#8, .lda, .indirectX, 2, 6, .none⟩, zext16 zp)
  | .ldaZeropage zp => (⟨0xA5#8, .lda, .zeropage, 2, 3, .none⟩, zext16 zp)
  | .ldaImmediate imm => (⟨0xA9#8, .lda, .immediate, 2, 2, .none⟩, zext16 imm)
  | .ldaAbsolute addr => (⟨0xAD#8, .lda, .absolute, 3, 4, .none⟩, addr)
  | .ldaIndirectY zp => (⟨0xB1#8, .lda, .indirectY, 2, 5, .read⟩, zext16 zp)
  | .ldaZeropageX zp => (⟨0xB5#8, .lda, .zeropageX, 2, 4, .none⟩, zext16 zp)
  | .ldaAbsoluteY addr => (⟨0xB9#8, .lda, .absoluteY, 3, 4, .read⟩, addr)
  | .ldaAbsoluteX addr => (⟨0xBD#8, .lda, .absoluteX, 3, 4, .read⟩, addr)
  | .ldxImmediate imm => (⟨0xA2#8, .ldx, .immediate, 2, 2, .none⟩, zext16 imm)
  | .ldxZeropage zp => (⟨0xA6#8, .ldx, .zeropage, 2, 3, .none⟩, zext16 zp)
  | .ldxAbsolute addr => (⟨0xAE#8, .ldx, .absolute, 3, 4, .none⟩, addr)
  | .ldxZeropageY zp => (⟨0xB6#8, .ldx, .zeropageY, 2, 4, .none⟩, zext16 zp)
  | .ldxAbsoluteY addr => (⟨0xBE#8, .ldx, .absoluteY, 3, 4, .read⟩, addr)
  | .ldyImmediate imm => (⟨0xA0#8, .ldy, .immediate, 2, 2, .none⟩, zext16 imm)
  | .ldyZeropage zp => (⟨0xA4#8, .ldy, .zeropage, 2, 3, .none⟩, zext16 zp)
  | .ldyAbsolute addr => (⟨0xAC#8, .ldy, .absolute, 3, 4, .none⟩, addr)
  | .ldyZeropageX zp => (⟨0xB4#8, .ldy, .zeropageX, 2, 4, .none⟩, zext16 zp)
  | .ldyAbsoluteX addr => (⟨0xBC#8, .ldy, .absoluteX, 3, 4, .read⟩, addr)
  | .staIndirectX zp => (⟨0x81#8, .sta, .indirectX, 2, 6, .none⟩, zext16 zp)
  | .staZeropage zp => (⟨0x85#8, .sta, .zeropage, 2, 3, .none⟩, zext16 zp)
  | .staAbsolute addr => (⟨0x8D#8, .sta, .absolute, 3, 4, .none⟩, addr)
  | .staIndirectY zp => (⟨0x91#8, .sta, .indirectY, 2, 6, .write⟩, zext16 zp)
  | .staZeropageX zp => (⟨0x95#8, .sta, .zeropageX, 2, 4, .none⟩, zext16 zp)
  | .staAbsoluteY addr => (⟨0x99#8, .sta, .absoluteY, 3, 5, .write⟩, addr)
  | .staAbsoluteX addr => (⟨0x9D#8, .sta, .absoluteX, 3, 5, .write⟩, addr)
  | .stxZeropage zp => (⟨0x86#8, .stx, .zeropage, 2, 3, .none⟩, zext16 zp)
  | .stxAbsolute addr => (⟨0x8E#8, .stx, .absolute, 3, 4, .none⟩, addr)
  | .stxZeropageY zp => (⟨0x96#8, .stx, .zeropageY, 2, 4, .none⟩, zext16 zp)
  | .styZeropage zp => (⟨0x84#8, .sty, .zeropage, 2, 3, .none⟩, zext16 zp)
  | .styAbsolute addr => (⟨0x8C#8, .sty, .absolute, 3, 4, .none⟩, addr)
  | .styZeropageX zp => (⟨0x94#8, .sty, .zeropageX, 2, 4, .none⟩, zext16 zp)
  | .pha => (⟨0x48#8, .pha, .implied, 1, 3, .none⟩, 0)
  | .php => (⟨0x08#8, .php, .implied, 1, 3, .none⟩, 0)
  | .pla => (⟨0x68#8, .pla, .implied, 1, 4, .none⟩, 0)
  | .plp => (⟨0x28#8, .plp, .implied, 1, 4, .none⟩, 0)
  | .tax => (⟨0xAA#8, .tax, .implied, 1, 2, .none⟩, 0)
  | .txa => (⟨0x8A#8, .txa, .implied, 1, 2, .none⟩, 0)
  | .tay => (⟨0xA8#8, .tay, .implied, 1, 2, .none⟩, 0)
  | .tya => (⟨0x98#8, .tya, .implied, 1, 2, .none⟩, 0)
  | .tsx => (⟨0xBA#8, .tsx, .implied, 1, 2, .none⟩, 0)
  | .txs => (⟨0x9A#8, .txs, .implied, 1, 2, .none⟩, 0)
  | .sec => (⟨0x38#8, .sec, .implied, 1, 2, .none⟩, 0)
  | .clc => (⟨0x18#8, .clc, .implied, 1, 2, .none⟩, 0)
  | .sed => (⟨0xF8#8, .sed, .implied, 1, 2, .none⟩, 0)
  | .cld => (⟨0xD8#8, .cld, .implied, 1, 2, .none⟩, 0)
  | .sei => (⟨0x78#8, .sei, .implied, 1, 2, .none⟩, 0)
  | .cli => (⟨0x58#8, .cli, .implied, 1, 2, .none⟩, 0)
  | .clv => (⟨0xB8#8, .clv, .implied, 1, 2, .none⟩, 0)
  | .nop => (⟨0xEA#8, .nop, .implied, 1, 2, .none⟩, 0)
  | .unimplemented opcode => (⟨opcode, .unimplemented, .none, 1, 0, .none⟩, 0)

/-- The descriptor of an instruction (10_state.md R29). -/
def Instr.descriptor (i : Instr) : Descriptor := i.row.1

/-- The raw operand `d.operand` (30_encoding.md R91). -/
def Instr.operand (i : Instr) : Word := i.row.2

/-- The decoded instruction at an address (10_state.md R30). -/
def Instr.decodedAt (i : Instr) (address : Word) : Decoded :=
  { i.descriptor with address := address, operand := i.operand }

/-- What a slot of the table still needs: no operand byte, one, or two (formats F1, F2, F3 of 30_encoding.md R91). -/
inductive Slot where
  | one (i : Instr)
  | two (mk : Byte → Instr)
  | three (mk : Word → Instr)

/-- The 256-slot table, by opcode byte (30_encoding.md R93, R96); every other slot holds the stub (R94, R97). -/
def slot (opcode : Byte) : Slot :=
  match opcode.toNat with
  | 0x00 => .one .brk
  | 0x01 => .two .oraIndirectX
  | 0x05 => .two .oraZeropage
  | 0x06 => .two .aslZeropage
  | 0x08 => .one .php
  | 0x09 => .two .oraImmediate
  | 0x0A => .one .aslAccumulator
  | 0x0D => .three .oraAbsolute
  | 0x0E => .three .aslAbsolute
  | 0x10 => .two .bpl
  | 0x11 => .two .oraIndirectY
  | 0x15 => .two .oraZeropageX
  | 0x16 => .two .aslZeropageX
  | 0x18 => .one .clc
  | 0x19 => .three .oraAbsoluteY
  | 0x1D => .three .oraAbsoluteX
  | 0x1E => .three .aslAbsoluteX
  | 0x20 => .three .jsr
  | 0x21 => .two .andIndirectX
  | 0x24 => .two .bitZeropage
  | 0x25 => .two .andZeropage
  | 0x26 => .two .rolZeropage
  | 0x28 => .one .plp
  | 0x29 => .two .andImmediate
  | 0x2A => .one .rolAccumulator
  | 0x2C => .three .bitAbsolute
  | 0x2D => .three .andAbsolute
  | 0x2E => .three .rolAbsolute
  | 0x30 => .two .bmi
  | 0x31 => .two .andIndirectY
  | 0x35 => .two .andZeropageX
  | 0x36 => .two .rolZeropageX
  | 0x38 => .one .sec
  | 0x39 => .three .andAbsoluteY
  | 0x3D => .three .andAbsoluteX
  | 0x3E => .three .rolAbsoluteX
  | 0x40 => .one .rti
  | 0x41 => .two .eorIndirectX
  | 0x45 => .two .eorZeropage
  | 0x46 => .two .lsrZeropage
  | 0x48 => .one .pha
  | 0x49 => .two .eorImmediate
  | 0x4A => .one .lsrAccumulator
  | 0x4C => .three .jmpAbsolute
  | 0x4D => .three .eorAbsolute
  | 0x4E => .three .lsrAbsolute
  | 0x50 => .two .bvc
  | 0x51 => .two .eorIndirectY
  | 0x55 => .two .eorZeropageX
  | 0x56 => .two .lsrZeropageX
  | 0x58 => .one .cli
  | 0x59 => .three .eorAbsoluteY
  | 0x5D => .three .eorAbsoluteX
  | 0x5E => .three .lsrAbsoluteX
  | 0x60 => .one .rts
  | 0x61 => .two .adcIndirectX
  | 0x65 => .two .adcZeropage
  | 0x66 => .two .rorZeropage
  | 0x68 => .one .pla
  | 0x69 => .two .adcImmediate
  | 0x6A => .one .rorAccumulator
  | 0x6C => .three .jmpIndirect
  | 0x6D => .three .adcAbsolute
  | 0x6E => .three .rorAbsolute
  | 0x70 => .two .bvs
  | 0x71 => .two .adcIndirectY
  | 0x75 => .two .adcZeropageX
  | 0x76 => .two .rorZeropageX
  | 0x78 => .one .sei
  | 0x79 => .three .adcAbsoluteY
  | 0x7D => .three .adcAbsoluteX
  | 0x7E => .three .rorAbsoluteX
  | 0x81 => .two .staIndirectX
  | 0x84 => .two .styZeropage
  | 0x85 => .two .staZeropage
  | 0x86 => .two .stxZeropage
  | 0x88 => .one .dey
  | 0x8A => .one .txa
  | 0x8C => .three .styAbsolute
  | 0x8D => .three .staAbsolute
  | 0x8E => .three .stxAbsolute
  | 0x90 => .two .bcc
  | 0x91 => .two .staIndirectY
  | 0x94 => .two .styZeropageX
  | 0x95 => .two .staZeropageX
  | 0x96 => .two .stxZeropageY
  | 0x98 => .one .tya
  | 0x99 => .three .staAbsoluteY
  | 0x9A => .one .txs
  | 0x9D => .three .staAbsoluteX
  | 0xA0 => .two .ldyImmediate
  | 0xA1 => .two .ldaIndirectX
  | 0xA2 => .two .ldxImmediate
  | 0xA4 => .two .ldyZeropage
  | 0xA5 => .two .ldaZeropage
  | 0xA6 => .two .ldxZeropage
  | 0xA8 => .one .tay
  | 0xA9 => .two .ldaImmediate
  | 0xAA => .one .tax
  | 0xAC => .three .ldyAbsolute
  | 0xAD => .three .ldaAbsolute
  | 0xAE => .three .ldxAbsolute
  | 0xB0 => .two .bcs
  | 0xB1 => .two .ldaIndirectY
  | 0xB4 => .two .ldyZeropageX
  | 0xB5 => .two .ldaZeropageX
  | 0xB6 => .two .ldxZeropageY
  | 0xB8 => .one .clv
  | 0xB9 => .three .ldaAbsoluteY
  | 0xBA => .one .tsx
  | 0xBC => .three .ldyAbsoluteX
  | 0xBD => .three .ldaAbsoluteX
  | 0xBE => .three .ldxAbsoluteY
  | 0xC0 => .two .cpyImmediate
  | 0xC1 => .two .cmpIndirectX
  | 0xC4 => .two .cpyZeropage
  | 0xC5 => .two .cmpZeropage
  | 0xC6 => .two .decZeropage
  | 0xC8 => .one .iny
  | 0xC9 => .two .cmpImmediate
  | 0xCA => .one .dex
  | 0xCC => .three .cpyAbsolute
  | 0xCD => .three .cmpAbsolute
  | 0xCE => .three .decAbsolute
  | 0xD0 => .two .bne
  | 0xD1 => .two .cmpIndirectY
  | 0xD5 => .two .cmpZeropageX
  | 0xD6 => .two .decZeropageX
  | 0xD8 => .one .cld
  | 0xD9 => .three .cmpAbsoluteY
  | 0xDD => .three .cmpAbsoluteX
  | 0xDE => .three .decAbsoluteX
  | 0xE0 => .two .cpxImmediate
  | 0xE1 => .two .sbcIndirectX
  | 0xE4 => .two .cpxZeropage
  | 0xE5 => .two .sbcZeropage
  | 0xE6 => .two .incZeropage
  | 0xE8 => .one .inx
  | 0xE9 => .two .sbcImmediate
  | 0xEA => .one .nop
  | 0xEC => .three .cpxAbsolute
  | 0xED => .three .sbcAbsolute
  | 0xEE => .three .incAbsolute
  | 0xF0 => .two .beq
  | 0xF1 => .two .sbcIndirectY
  | 0xF5 => .two .sbcZeropageX
  | 0xF6 => .two .incZeropageX
  | 0xF8 => .one .sed
  | 0xF9 => .three .sbcAbsoluteY
  | 0xFD => .three .sbcAbsoluteX
  | 0xFE => .three .incAbsoluteX
  | _ => .one (.unimplemented opcode)

/-- The instruction of three successive bytes, of which the slot uses as many as its format has (R110): the operand
word has its low byte first. -/
def decodeBytes (b0 b1 b2 : Byte) : Instr :=
  match slot b0 with
  | .one i => i
  | .two mk => mk b1
  | .three mk => mk (wordOf b2 b1)

/-- The descriptor a slot holds (30_encoding.md R93, R95). -/
def slotDescriptor (opcode : Byte) : Descriptor := (decodeBytes opcode 0 0).descriptor

/-- Why a list of bytes is no instruction. -/
inductive DecodeError where
  /-- There is no byte. -/
  | noOpcode
  /-- The list ends before the operand bytes of the opcode's format. -/
  | missingOperand (opcode : Byte)
  deriving DecidableEq, Repr

/-- The decoder on a list of bytes: the instruction at its head and the bytes that follow it (30_encoding.md R90). -/
def decode : List Byte → Except DecodeError (Instr × List Byte)
  | [] => .error .noOpcode
  | op :: rest =>
    match slot op, rest with
    | .one i, rest => .ok (i, rest)
    | .two mk, b :: rest => .ok (mk b, rest)
    | .three mk, lo :: hi :: rest => .ok (mk (wordOf hi lo), rest)
    | _, _ => .error (.missingOperand op)

/-- The operand bytes of a format, low byte first (30_encoding.md R91). -/
def operandBytes (length : Nat) (operand : Word) : List Byte :=
  match length with
  | 2 => [loByte operand]
  | 3 => [loByte operand, hiByte operand]
  | _ => []

/-- The bytes of an instruction, from the lowest address up (30_encoding.md R91). -/
def encode (i : Instr) : List Byte :=
  i.descriptor.opcode :: operandBytes i.descriptor.length i.operand

/-- The three bytes of a table word: byte k is bits 8k+7 to 8k of its low `nbits` bits. -/
def tableBytes (nbits w : Nat) : Byte × Byte × Byte :=
  let v := w % 2 ^ nbits
  (BitVec.ofNat 8 v, BitVec.ofNat 8 (v / 256), BitVec.ofNat 8 (v / 65536))

/-- The instruction the decoder reads from an instruction whose bits, as spec/opcode_table.json numbers them, are `w`. -/
def decodeTableWord (nbits w : Nat) : Option Instr :=
  let (b0, b1, b2) := tableBytes nbits w
  match decode [b0, b1, b2] with
  | .ok (i, _) => some i
  | .error _ => none

end Sys2Proof
end

