-- ==== Sys2Proof/Config.lean ====
section
/-! DEFINITION. The implementation parameters of 00_scope.md R6 and the block's two fixed addresses.
The five parameters are launch premises of a run (70_reset_and_hazards.md R376): State carries a value of
`Params`, no step changes it, and so a statement over all states covers every value of every parameter (log 1). -/

namespace Sys2Proof

/-- UNIMPL_POLICY (00_scope.md R6; 48_flags_nop.md R318): what executing an unfilled slot does. -/
inductive UnimplPolicy where
  | fault
  | noOp
  deriving DecidableEq, Repr

/-- The parameters of 00_scope.md R6 whose value the spec leaves to the implementation or the host. -/
structure Params where
  /-- START_PC, the configured start value of PC (R370, R371). -/
  startPc : Word
  /-- P_INIT, the FLAGS byte at construction (R370). -/
  pInit : Byte
  /-- UNIMPL_POLICY (R318, R341). -/
  unimplPolicy : UnimplPolicy
  /-- PULL_FORCE_BU: whether PLP and RTI force bits B and U of FLAGS (R243, R283). -/
  pullForceBU : Bool
  /-- PENALTY_ON_ALL_USERS: whether every user of a penalised mode takes the page-crossing cycle (R102). -/
  penaltyOnAllUsers : Bool
  deriving DecidableEq, Repr

namespace Config

/-- The parameters State.reset carries: the spec's defaults for UNIMPL_POLICY, PULL_FORCE_BU and
PENALTY_ON_ALL_USERS (00_scope.md R6; log 4, 5, 6).
DESIGN CHOICE: START_PC = 0x0600 (log 2) and P_INIT = 0x00 (log 3), for which the spec gives no default; unsafe. -/
def defaultParams : Params where
  startPc := 0x0600#16
  pInit := 0x00#8
  unimplPolicy := .fault
  pullForceBU := false
  penaltyOnAllUsers := true

/-- STACK_BASE: the first address of the stack page (00_scope.md R6; D23, DEDUCED, log 28). -/
def stackBase : Word := 0x0100#16

/-- BRK_VECTOR: the address of the low byte of BRK's target (00_scope.md R6). -/
def brkVector : Word := 0xFFFE#16

end Config

end Sys2Proof
end

