-- ==== Sys2Proof/Machine/State.lean ====
section
/-! DEFINITION. The state of the block (10_state.md R20) with the launch premises a step depends on
(10_state.md R34; 70_reset_and_hazards.md R376), the faults, the refusals and the state after reset. -/

namespace Sys2Proof.Machine

/-- The eight flags of P (10_state.md R24). -/
inductive Flag where
  | n | v | u | b | d | i | z | c
  deriving DecidableEq, Repr

/-- The memory: the bytes that differ from what an unlisted address reads as, by strictly rising address.
`Memory.read`, `Memory.write` and the canonical form `Memory.wf` are in Machine/Ops.lean. -/
abbrev Memory := List Host.Cell

/-- Everything a step reads or writes. -/
structure State where
  /-- The accumulator A (R21). -/
  a : Byte
  /-- Index register X (R22). -/
  x : Byte
  /-- Index register Y (R22). -/
  y : Byte
  /-- The stack pointer SP: the offset of the next free byte in page 1 (R23). -/
  sp : Byte
  /-- The program counter PC. -/
  pc : Word
  /-- The FLAGS byte P (R24). -/
  p : Byte
  /-- The elapsed-cycle counter CYC, unbounded (R31; D8, DEDUCED, log 21). -/
  cyc : Nat
  /-- The 64 KB memory, which the host owns (20_memory.md R60, R61). -/
  mem : Memory
  /-- The launch parameters (R34), which no step changes. -/
  params : Params
  deriving DecidableEq, Repr

/-- The error kinds of the source's taxonomy (60_exceptions.md R340): the step has no next state. -/
inductive Fault where
  /-- Raised by `execUnimplemented` when a step executes an unfilled slot and UNIMPL_POLICY = Fault, before any
  state change (60_exceptions.md R341).
  Safe: the model stops where the NoOp block goes on, and the NoOp block is modelled by the other policy. -/
  | unimplementedOpcode (opcode : Byte) (address : Word)
  /-- Raised by `decodeAt` on a descriptor whose length is outside 1 to 3 (60_exceptions.md R342).
  Safe: the fixed table has no such descriptor, so no state raises it. -/
  | invalidInstructionLength (address : Word) (length : Nat)
  /-- Raised by `execute` when a handler asks for a value or an address that the instruction's mode does not give
  (60_exceptions.md R343).
  DESIGN CHOICE: R343 names no information for it; it carries the opcode byte and d.address (log 30).
  Safe: no row of the fixed table pairs a handler with such a mode, so no state raises it. -/
  | unsupportedAddressingMode (opcode : Byte) (address : Word)
  deriving DecidableEq, Repr

/-- Why a step can have no meaning in this model. -/
inductive Refusal where
  /-- Raised by an arm of `exec` whose instruction has no meaning yet; no arm does (safe). -/
  | notModelled (mnemonic : String)
  deriving DecidableEq, Repr

/-- The block right after construction with the default parameters and nothing stored in memory
(10_state.md R32; 70_reset_and_hazards.md R370): the spec gives SP = 0xFF, A = X = Y = 0, PC = START_PC,
P = P_INIT and CYC = 0.
DESIGN CHOICE: the values of START_PC (log 2) and P_INIT (log 3) and the content of memory (log 7); unsafe. -/
def State.reset : State where
  a := 0x00#8
  x := 0x00#8
  y := 0x00#8
  sp := 0xFF#8
  pc := Config.defaultParams.startPc
  p := Config.defaultParams.pInit
  cyc := 0
  mem := []
  params := Config.defaultParams

end Sys2Proof.Machine
end

