-- ==== Sys2Proof/Machine/Ops.lean ====
section
/-! DEFINITION. The named operations over memory, registers and flags: the memory interface (20_memory.md R60 to R62),
the flag bits (10_state.md R24), the stack primitives (20_memory.md R66 to R69), and taking a trap and returning from
one (43_branch_brk.md R199; 45_jump.md R243; 60_exceptions.md R347, R348). -/

namespace Sys2Proof.Machine

/-! ## Memory -/

namespace Memory

/-- What an address that no cell lists reads as.
DESIGN CHOICE: the spec leaves the initial content to the host (20_memory.md R61); unsafe at State.reset (log 7).
Every memory content is some list of cells, so a statement over all states does not rest on it. -/
def unlisted : Byte := 0x00#8

/-- The byte at a key of the list. -/
def lookup : Memory → Nat → Byte
  | [], _ => unlisted
  | (k, v) :: rest, key => if k = key then v else lookup rest key

/-- The list with one cell put in its place by address. -/
def place : Memory → Nat → Byte → Memory
  | [], key, v => [(key, v)]
  | (k, old) :: rest, key, v =>
    if key < k then (key, v) :: (k, old) :: rest
    else if key = k then (key, v) :: rest
    else (k, old) :: place rest key v

/-- `MemRead(addr, 1)` (20_memory.md R60, R61). A `Word` is its own reduction modulo 65 536 (R65). -/
def read (m : Memory) (addr : Word) : Byte := lookup m addr.toNat

/-- `MemWrite(addr, 1, v)` (20_memory.md R60, R61); the canonical form is kept. -/
def write (m : Memory) (addr : Word) (v : Byte) : Memory :=
  if v = unlisted then m.filter (fun cell => cell.1 != addr.toNat)
  else place m addr.toNat v

/-- Every cell's address is above a bound, the addresses rise, stay inside the 65 536 bytes of the address space
(20_memory.md R60), and no cell holds what an unlisted address reads as. -/
def canonicalFrom : Nat → Memory → Bool
  | _, [] => true
  | bound, (k, v) :: rest => decide (bound ≤ k) && decide (k < 65536) && v != unlisted && canonicalFrom (k + 1) rest

/-- The canonical form of a memory: equal contents are equal lists. -/
def wf (m : Memory) : Bool := canonicalFrom 0 m

/-- `ReadWord(addr)`: low byte at addr, high byte at addr + 1 modulo 65 536 (20_memory.md R62). -/
def readWord (m : Memory) (addr : Word) : Word := wordOf (m.read (addr + 1#16)) (m.read addr)

/-- `ReadWordZP(z)`: a word of page 0 whose high byte wraps within the page (30_encoding.md R104). -/
def readWordZP (m : Memory) (z : Byte) : Word := wordOf (m.read (zext16 (z + 1#8))) (m.read (zext16 z))

end Memory

/-! ## Registers: one update per field -/

namespace State

def setA (s : State) (v : Byte) : State := { s with a := v }
def setX (s : State) (v : Byte) : State := { s with x := v }
def setY (s : State) (v : Byte) : State := { s with y := v }
def setSp (s : State) (v : Byte) : State := { s with sp := v }
def setPc (s : State) (v : Word) : State := { s with pc := v }
def setP (s : State) (v : Byte) : State := { s with p := v }
def setCyc (s : State) (n : Nat) : State := { s with cyc := n }
def setMem (s : State) (m : Memory) : State := { s with mem := m }

/-- `MemWrite` as an update of the whole state (20_memory.md R60). -/
def store (s : State) (addr : Word) (v : Byte) : State := s.setMem (s.mem.write addr v)

end State

/-! ## Flags -/

/-- The bit of P that holds a flag (10_state.md R24; D3, PRESUMED, log 11). -/
def Flag.bit : Flag → Nat
  | .n => 7
  | .v => 6
  | .u => 5
  | .b => 4
  | .d => 3
  | .i => 2
  | .z => 1
  | .c => 0

/-- The mask of a flag in P (10_state.md R24). -/
def Flag.mask (f : Flag) : Byte := 1#8 <<< f.bit

/-- `P.f` of a FLAGS byte. -/
def getFlag (p : Byte) (f : Flag) : Bool := p.getLsbD f.bit

/-- The FLAGS byte with one flag written; every other bit keeps its value (10_state.md R26). -/
def setFlag (p : Byte) (f : Flag) (v : Bool) : Byte :=
  if v then p ||| f.mask else p &&& ~~~f.mask

/-- `P.f` of a state. -/
def State.flag (s : State) (f : Flag) : Bool := getFlag s.p f

/-- Bits B and U of the copy of P that PHP and BRK push (10_state.md R27). -/
def breakUnused : Byte := 0x30#8

/-- The FLAGS byte PLP and RTI store for a pulled byte
(45_jump.md R243; 47_stack_transfer.md R283; D4, DEDUCED, log 5). -/
def pulledFlags (params : Params) (v : Byte) : Byte :=
  if params.pullForceBU then v ||| breakUnused else v

/-! ## The stack -/

/-- The address of the stack byte at an SP value (10_state.md R23). -/
def stackAddress (sp : Byte) : Word := Config.stackBase + zext16 sp

/-- `Push(v)` (20_memory.md R66). -/
def push (v : Byte) (s : State) : State :=
  (s.store (stackAddress s.sp) v).setSp (s.sp - 1#8)

/-- `Pop()` (20_memory.md R67): the byte and the state after it. -/
def pop (s : State) : Byte × State :=
  let sp := s.sp + 1#8
  (s.mem.read (stackAddress sp), s.setSp sp)

/-- `PushWord(w)`: the high byte first (20_memory.md R68). -/
def pushWord (w : Word) (s : State) : State := push (loByte w) (push (hiByte w) s)

/-- `PopWord()`: the low byte first (20_memory.md R69). -/
def popWord (s : State) : Word × State :=
  let (lo, s1) := pop s
  let (hi, s2) := pop s1
  (wordOf hi lo, s2)

/-! ## Taking a trap and returning from one -/

/-- Trap entry (43_branch_brk.md R199; 60_exceptions.md R347): push the return address, set B, push P with B and U
forced, set I, and load PC from the vector word, in that order. D is not changed (D5, DEDUCED, log 12)
and the vector is little-endian (D22, PRESUMED, log 26). -/
def enterTrap (returnAddress vector : Word) (s : State) : State :=
  let s1 := pushWord returnAddress s
  let s2 := s1.setP (setFlag s1.p .b true)
  let s3 := push (s2.p ||| breakUnused) s2
  let s4 := s3.setP (setFlag s3.p .i true)
  s4.setPc (s4.mem.readWord vector)

/-- Trap return (45_jump.md R243; 60_exceptions.md R348): pull P, then PC with no adjustment. -/
def returnFromTrap (s : State) : State :=
  let (v, s1) := pop s
  let s2 := s1.setP (pulledFlags s1.params v)
  let (w, s3) := popWord s2
  s3.setPc w

end Sys2Proof.Machine
end

