-- ==== Sys2Proof/Machine/Flags.lean ====
section
/-! DEFINITION. The flag-update algebra and the ALU: every result and flag computation of the instruction rules as a
function of bytes (40_arith.md R130 to R133; 42_shift.md R171 to R174; 44_compare_incdec.md R210), and the write of its
flags into P as one assignment (10_state.md R26). -/

namespace Sys2Proof.Machine

/-- An 8-bit result with the flags ADC and SBC compute. -/
structure AluResult where
  value : Byte
  n : Bool
  v : Bool
  z : Bool
  c : Bool
  deriving DecidableEq, Repr

/-- `SetNZ(v)` (00_scope.md R10). -/
def setNZ (p v : Byte) : Byte := setFlag (setFlag p .n (v.getLsbD 7)) .z (v == 0#8)

/-- N, Z and C of a result, one assignment of P. -/
def setNZC (p v : Byte) (c : Bool) : Byte := setFlag (setNZ p v) .c c

/-- The flags of an ALU result written into P; D, I, B and U keep their values (40_arith.md R130, R132). -/
def setNVZC (p : Byte) (r : AluResult) : Byte :=
  setFlag (setFlag (setFlag (setFlag p .n r.n) .v r.v) .z r.z) .c r.c

/-- The low nibble `v[3:0]`. -/
def lowNibble (v : Byte) : Nat := v.toNat % 16

/-- The high nibble `v[7:4]`. -/
def highNibble (v : Byte) : Nat := v.toNat / 16

/-- `((hi & 0xF) << 4) | (lo & 0xF)`: a byte of two nibble sums, each cut to four bits. -/
def nibbles (hi lo : Nat) : Byte := BitVec.ofNat 8 (hi % 16 * 16 + lo % 16)

/-- The binary mode of ADC (40_arith.md R130). -/
def addBinary (a v : Byte) (carry : Bool) : AluResult :=
  let r := a.toNat + v.toNat + carry.toNat
  let r8 := BitVec.ofNat 8 r
  { value := r8
    n := r8.getLsbD 7
    v := (~~~(a ^^^ v) &&& (a ^^^ r8)).getLsbD 7
    z := r8 == 0#8
    c := decide (0xFF < r) }

/-- BCDAdd, the decimal mode of ADC (40_arith.md R131; C5; D13, DEDUCED, log 13): N, V and Z of the
unadjusted nibble sums, C the decimal carry. -/
def addDecimal (a v : Byte) (carry : Bool) : AluResult :=
  let lo := lowNibble a + lowNibble v + carry.toNat
  let hc := decide (9 < lo)
  let hi := highNibble a + highNibble v + hc.toNat
  let dc := decide (9 < hi)
  let alu := nibbles hi lo
  { value := nibbles (hi + if dc then 6 else 0) (lo + if hc then 6 else 0)
    n := alu.getLsbD 7
    v := (~~~(a ^^^ v) &&& (a ^^^ alu)).getLsbD 7
    z := alu == 0#8
    c := dc }

/-- The binary computation of SBC, from which its flags come in both modes (40_arith.md R132; D14, DEDUCED, log 14). -/
def subBinary (a v : Byte) (carry : Bool) : AluResult :=
  let r := a.toNat + (~~~v).toNat + carry.toNat
  let r8 := BitVec.ofNat 8 r
  { value := r8
    n := r8.getLsbD 7
    v := ((a ^^^ v) &&& (a ^^^ r8)).getLsbD 7
    z := r8 == 0#8
    c := decide (0xFF < r) }

/-- BCDSubAdjust, the decimal-mode result of SBC (40_arith.md R133; C6; D14, DEDUCED, log 14): each nibble that
borrowed is corrected by +10 modulo 16. -/
def subAdjust (a v : Byte) (carry : Bool) (r8 : Byte) : Byte :=
  let lo := lowNibble a + lowNibble (~~~v) + carry.toNat
  let lb := decide (lo ≤ 0xF)
  let hi := highNibble a + highNibble (~~~v) + if lb then 0 else 1
  let hb := decide (hi ≤ 0xF)
  nibbles (highNibble r8 + if hb then 10 else 0) (lowNibble r8 + if lb then 10 else 0)

/-- SBC in decimal mode: the adjusted value, the flags of the binary computation (40_arith.md R132, R133). -/
def subDecimal (a v : Byte) (carry : Bool) : AluResult :=
  let r := subBinary a v carry
  { r with value := subAdjust a v carry r.value }

/-- `Compare(R)` (44_compare_incdec.md R210; D15, DEDUCED, log 15): N, Z and C of register minus operand. -/
def compareFlags (p r v : Byte) : Byte := setNZC p (r - v) (decide (v.toNat ≤ r.toNat))

/-- ASL: the result and the bit shifted out (42_shift.md R171). -/
def shiftAsl (v : Byte) (_carry : Bool) : Byte × Bool := (v <<< 1, v.getLsbD 7)

/-- LSR (42_shift.md R172). -/
def shiftLsr (v : Byte) (_carry : Bool) : Byte × Bool := (v >>> 1, v.getLsbD 0)

/-- ROL (42_shift.md R173). -/
def shiftRol (v : Byte) (carry : Bool) : Byte × Bool :=
  ((v <<< 1) ||| (if carry then 0x01#8 else 0x00#8), v.getLsbD 7)

/-- ROR (42_shift.md R174). -/
def shiftRor (v : Byte) (carry : Bool) : Byte × Bool :=
  ((v >>> 1) ||| (if carry then 0x80#8 else 0x00#8), v.getLsbD 0)

/-- The flags BIT writes: Z of A and the operand, N and V copied from the operand (41_logic_bit.md R153). -/
def bitFlags (p a v : Byte) : Byte :=
  setFlag (setFlag (setFlag p .z (a &&& v == 0#8)) .n (v.getLsbD 7)) .v (v.getLsbD 6)

end Sys2Proof.Machine
end

