-- ==== Sys2Proof/Machine/Operands.lean ====
section
/-! DEFINITION. Every operand form: effective-address resolution (30_encoding.md R98 to R106), the page-crossing cycle
(R102), the decoded value (R108), result write-back (R109), and the common part of a step around a handler (R112). -/

namespace Sys2Proof.Machine

/-- The pointer of Indirect mode: the high byte does not cross into the next page (30_encoding.md R103). -/
def readPointer (m : Memory) (p : Word) : Word :=
  wordOf (m.read (wordOf (hiByte p) (loByte p + 1#8))) (m.read p)

/-- `EA(d)`, none for the modes without an effective address (30_encoding.md R99 to R101, R103 to R106). -/
def effectiveAddress (d : Decoded) (s : State) : Option Word :=
  match d.mode with
  | .none => none
  | .implied => none
  | .accumulator => none
  | .immediate => none
  | .branch => none
  | .zeropage => some (zext16 (loByte d.operand))
  | .zeropageX => some (zext16 (loByte d.operand + s.x))
  | .zeropageY => some (zext16 (loByte d.operand + s.y))
  | .absolute => some d.operand
  | .absoluteX => some (d.operand + zext16 s.x)
  | .absoluteY => some (d.operand + zext16 s.y)
  | .indirect => some (readPointer s.mem d.operand)
  | .indirectX => some (s.mem.readWordZP (loByte d.operand + s.x))
  | .indirectY => some (s.mem.readWordZP (loByte d.operand) + zext16 s.y)

/-- `crossed`: the low byte of the base overflows when the index is added (30_encoding.md R102). -/
def pageCrossed (base16 : Word) (index : Byte) : Bool :=
  decide (0xFF < (loByte base16).toNat + index.toNat)

/-- `applies`: the row takes the page-crossing cycle (30_encoding.md R102; D6, DEDUCED, log 6; C10). -/
def penaltyApplies (params : Params) (cls : PageClass) : Bool :=
  params.penaltyOnAllUsers || cls == .read

/-- The cycle the resolver adds to `d.extra` (30_encoding.md R99 to R105). -/
def pageCycles (d : Decoded) (s : State) : Nat :=
  let crossing (base16 : Word) (index : Byte) : Nat :=
    if pageCrossed base16 index && penaltyApplies s.params d.pageClass then 1 else 0
  match d.mode with
  | .none => 0
  | .implied => 0
  | .accumulator => 0
  | .immediate => 0
  | .branch => 0
  | .zeropage => 0
  | .zeropageX => 0
  | .zeropageY => 0
  | .absolute => 0
  | .absoluteX => crossing d.operand s.x
  | .absoluteY => crossing d.operand s.y
  | .indirect => 0
  | .indirectX => 0
  | .indirectY => crossing (s.mem.readWordZP (loByte d.operand)) s.y

/-- A decoded value: a byte, the 16-bit address of Indirect mode, or none (30_encoding.md R108). -/
inductive OperandValue where
  | byte (v : Byte)
  | word (w : Word)
  | none
  deriving DecidableEq, Repr

/-- `Value(d, ea)` (30_encoding.md R108). -/
def decodedValue (d : Decoded) (s : State) : OperandValue :=
  match d.mode, effectiveAddress d s with
  | .accumulator, _ => .byte s.a
  | .immediate, _ => .byte (loByte d.operand)
  | .branch, _ => .byte (loByte d.operand)
  | .indirect, some ea => .word ea
  | _, some ea => .byte (s.mem.read ea)
  | _, none => .none

/-- `Store(d, ea, r)` (30_encoding.md R109); none where the mode has no place to write to. -/
def storeResult (d : Decoded) (ea : Option Word) (r : Byte) (s : State) : Option State :=
  match d.mode, ea with
  | .accumulator, _ => some (s.setA r)
  | _, some ea => some (s.store ea r)
  | _, none => none

/-- What an instruction rule does inside a step: from the decoded instruction and the state whose PC is already past
the instruction, the state after the handler and the cycles the handler adds to `d.extra`; none where the rule asks
for a value or an address that the mode does not give (30_encoding.md R112; 60_exceptions.md R343). -/
abbrev Handler := Decoded → State → Option (State × Nat)

/-- The common part of a step around a handler, after decode and the policy check (30_encoding.md R112): advance PC,
resolve, run the handler, add base and extra cycles to CYC (R113). -/
def execute (i : Instr) (handler : Handler) (s : State) : Host.Outcome State Fault Refusal :=
  let d := i.decodedAt s.pc
  let s1 := s.setPc (s.pc + BitVec.ofNat 16 d.length)
  match handler d s1 with
  | some (s2, extra) => .next (s2.setCyc (s2.cyc + (d.baseCycles + (pageCycles d s1 + extra))))
  | none => .fault (.unsupportedAddressingMode d.opcode d.address)

/-! ## The handler shapes -/

/-- A rule without operand. -/
def implied (f : State → State) : Handler := fun _ s => some (f s, 0)

/-- A rule that consumes one operand byte `v = Value(d, ea)`. -/
def reading (f : Byte → State → State) : Handler := fun d s =>
  match decodedValue d s with
  | .byte v => some (f v s, 0)
  | .word _ => none
  | .none => none

/-- A store: one MemWrite at `ea` and no read of it (20_memory.md R71; 46_load_store.md R263). -/
def storing (f : State → Byte) : Handler := fun d s =>
  match effectiveAddress d s with
  | some ea => some (s.store ea (f s), 0)
  | none => none

/-- A read-modify-write: one read of the operand, one write-back, then the flags (42_shift.md R170;
44_compare_incdec.md R214, R215). `f` gives the result and the new P from the operand and the old P. -/
def modifying (f : Byte → Byte → Byte × Byte) : Handler := fun d s =>
  match decodedValue d s with
  | .byte v =>
    let (r, p) := f v s.p
    match storeResult d (effectiveAddress d s) r s with
    | some s1 => some (s1.setP p, 0)
    | none => none
  | .word _ => none
  | .none => none

/-- A rule that continues at `ea` after an effect on the advanced state (45_jump.md R240, R241). `ea` is resolved
before the effect (20_memory.md R72). -/
def jumping (f : State → State) : Handler := fun d s =>
  match effectiveAddress d s with
  | some ea => some ((f s).setPc ea, 0)
  | none => none

end Sys2Proof.Machine
end

