-- ==== Sys2Proof/Machine/Arith.lean ====
section
/-! DEFINITION. ADC and SBC, binary and decimal (40_arith.md R130 to R133). Decimal mode is
read by these two alone (R134; D27, DEDUCED, log 28). -/

namespace Sys2Proof.Machine

/-- A and the flags of an ALU result, P in one assignment (10_state.md R26). -/
def State.setAlu (s : State) (r : AluResult) : State := (s.setP (setNVZC s.p r)).setA r.value

/-- ADC's effect for an operand byte (40_arith.md R130, R131; D16, PRESUMED, log 16). -/
def adc (v : Byte) (s : State) : State :=
  s.setAlu (if s.flag .d then addDecimal s.a v (s.flag .c) else addBinary s.a v (s.flag .c))

/-- SBC's effect for an operand byte (40_arith.md R132, R133; D14, DEDUCED, log 14; D16, PRESUMED, log 16). -/
def sbc (v : Byte) (s : State) : State :=
  s.setAlu (if s.flag .d then subDecimal s.a v (s.flag .c) else subBinary s.a v (s.flag .c))

/-- ADC IndirectX, opcode 0x61 (40_arith.md R130). -/
def execAdcIndirectX (zp : Byte) (s : State) : Host.Outcome State Fault Refusal :=
  execute (.adcIndirectX zp) (reading adc) s

/-- ADC Zeropage, opcode 0x65 (40_arith.md R130). -/
def execAdcZeropage (zp : Byte) (s : State) : Host.Outcome State Fault Refusal :=
  execute (.adcZeropage zp) (reading adc) s

/-- ADC Immediate, opcode 0x69 (40_arith.md R130). -/
def execAdcImmediate (imm : Byte) (s : State) : Host.Outcome State Fault Refusal :=
  execute (.adcImmediate imm) (reading adc) s

/-- ADC Absolute, opcode 0x6D (40_arith.md R130). -/
def execAdcAbsolute (addr : Word) (s : State) : Host.Outcome State Fault Refusal :=
  execute (.adcAbsolute addr) (reading adc) s

/-- ADC IndirectY, opcode 0x71 (40_arith.md R130). -/
def execAdcIndirectY (zp : Byte) (s : State) : Host.Outcome State Fault Refusal :=
  execute (.adcIndirectY zp) (reading adc) s

/-- ADC ZeropageX, opcode 0x75 (40_arith.md R130). -/
def execAdcZeropageX (zp : Byte) (s : State) : Host.Outcome State Fault Refusal :=
  execute (.adcZeropageX zp) (reading adc) s

/-- ADC AbsoluteY, opcode 0x79 (40_arith.md R130). -/
def execAdcAbsoluteY (addr : Word) (s : State) : Host.Outcome State Fault Refusal :=
  execute (.adcAbsoluteY addr) (reading adc) s

/-- ADC AbsoluteX, opcode 0x7D (40_arith.md R130). -/
def execAdcAbsoluteX (addr : Word) (s : State) : Host.Outcome State Fault Refusal :=
  execute (.adcAbsoluteX addr) (reading adc) s

/-- SBC IndirectX, opcode 0xE1 (40_arith.md R132). -/
def execSbcIndirectX (zp : Byte) (s : State) : Host.Outcome State Fault Refusal :=
  execute (.sbcIndirectX zp) (reading sbc) s

/-- SBC Zeropage, opcode 0xE5 (40_arith.md R132). -/
def execSbcZeropage (zp : Byte) (s : State) : Host.Outcome State Fault Refusal :=
  execute (.sbcZeropage zp) (reading sbc) s

/-- SBC Immediate, opcode 0xE9 (40_arith.md R132). -/
def execSbcImmediate (imm : Byte) (s : State) : Host.Outcome State Fault Refusal :=
  execute (.sbcImmediate imm) (reading sbc) s

/-- SBC Absolute, opcode 0xED (40_arith.md R132). -/
def execSbcAbsolute (addr : Word) (s : State) : Host.Outcome State Fault Refusal :=
  execute (.sbcAbsolute addr) (reading sbc) s

/-- SBC IndirectY, opcode 0xF1 (40_arith.md R132). -/
def execSbcIndirectY (zp : Byte) (s : State) : Host.Outcome State Fault Refusal :=
  execute (.sbcIndirectY zp) (reading sbc) s

/-- SBC ZeropageX, opcode 0xF5 (40_arith.md R132). -/
def execSbcZeropageX (zp : Byte) (s : State) : Host.Outcome State Fault Refusal :=
  execute (.sbcZeropageX zp) (reading sbc) s

/-- SBC AbsoluteY, opcode 0xF9 (40_arith.md R132). -/
def execSbcAbsoluteY (addr : Word) (s : State) : Host.Outcome State Fault Refusal :=
  execute (.sbcAbsoluteY addr) (reading sbc) s

/-- SBC AbsoluteX, opcode 0xFD (40_arith.md R132). -/
def execSbcAbsoluteX (addr : Word) (s : State) : Host.Outcome State Fault Refusal :=
  execute (.sbcAbsoluteX addr) (reading sbc) s

end Sys2Proof.Machine
end

