-- ==== Sys2Proof/Machine/Logic.lean ====
section
/-! DEFINITION. AND, ORA, EOR and BIT (41_logic_bit.md R150 to R153). -/

namespace Sys2Proof.Machine

/-- A and the flags N and Z of a result. -/
def State.setANZ (s : State) (r : Byte) : State := (s.setA r).setP (setNZ s.p r)

/-- AND's effect (41_logic_bit.md R150). -/
def andA (v : Byte) (s : State) : State := s.setANZ (s.a &&& v)

/-- ORA's effect (41_logic_bit.md R151). -/
def oraA (v : Byte) (s : State) : State := s.setANZ (s.a ||| v)

/-- EOR's effect (41_logic_bit.md R152). -/
def eorA (v : Byte) (s : State) : State := s.setANZ (s.a ^^^ v)

/-- BIT's effect: P alone (41_logic_bit.md R153). -/
def bitTest (v : Byte) (s : State) : State := s.setP (bitFlags s.p s.a v)

/-- AND IndirectX, opcode 0x21 (41_logic_bit.md R150). -/
def execAndIndirectX (zp : Byte) (s : State) : Host.Outcome State Fault Refusal :=
  execute (.andIndirectX zp) (reading andA) s

/-- AND Zeropage, opcode 0x25 (41_logic_bit.md R150). -/
def execAndZeropage (zp : Byte) (s : State) : Host.Outcome State Fault Refusal :=
  execute (.andZeropage zp) (reading andA) s

/-- AND Immediate, opcode 0x29 (41_logic_bit.md R150). -/
def execAndImmediate (imm : Byte) (s : State) : Host.Outcome State Fault Refusal :=
  execute (.andImmediate imm) (reading andA) s

/-- AND Absolute, opcode 0x2D (41_logic_bit.md R150). -/
def execAndAbsolute (addr : Word) (s : State) : Host.Outcome State Fault Refusal :=
  execute (.andAbsolute addr) (reading andA) s

/-- AND IndirectY, opcode 0x31 (41_logic_bit.md R150). -/
def execAndIndirectY (zp : Byte) (s : State) : Host.Outcome State Fault Refusal :=
  execute (.andIndirectY zp) (reading andA) s

/-- AND ZeropageX, opcode 0x35 (41_logic_bit.md R150). -/
def execAndZeropageX (zp : Byte) (s : State) : Host.Outcome State Fault Refusal :=
  execute (.andZeropageX zp) (reading andA) s

/-- AND AbsoluteY, opcode 0x39 (41_logic_bit.md R150). -/
def execAndAbsoluteY (addr : Word) (s : State) : Host.Outcome State Fault Refusal :=
  execute (.andAbsoluteY addr) (reading andA) s

/-- AND AbsoluteX, opcode 0x3D (41_logic_bit.md R150). -/
def execAndAbsoluteX (addr : Word) (s : State) : Host.Outcome State Fault Refusal :=
  execute (.andAbsoluteX addr) (reading andA) s

/-- ORA IndirectX, opcode 0x01 (41_logic_bit.md R151). -/
def execOraIndirectX (zp : Byte) (s : State) : Host.Outcome State Fault Refusal :=
  execute (.oraIndirectX zp) (reading oraA) s

/-- ORA Zeropage, opcode 0x05 (41_logic_bit.md R151). -/
def execOraZeropage (zp : Byte) (s : State) : Host.Outcome State Fault Refusal :=
  execute (.oraZeropage zp) (reading oraA) s

/-- ORA Immediate, opcode 0x09 (41_logic_bit.md R151). -/
def execOraImmediate (imm : Byte) (s : State) : Host.Outcome State Fault Refusal :=
  execute (.oraImmediate imm) (reading oraA) s

/-- ORA Absolute, opcode 0x0D (41_logic_bit.md R151). -/
def execOraAbsolute (addr : Word) (s : State) : Host.Outcome State Fault Refusal :=
  execute (.oraAbsolute addr) (reading oraA) s

/-- ORA IndirectY, opcode 0x11 (41_logic_bit.md R151). -/
def execOraIndirectY (zp : Byte) (s : State) : Host.Outcome State Fault Refusal :=
  execute (.oraIndirectY zp) (reading oraA) s

/-- ORA ZeropageX, opcode 0x15 (41_logic_bit.md R151). -/
def execOraZeropageX (zp : Byte) (s : State) : Host.Outcome State Fault Refusal :=
  execute (.oraZeropageX zp) (reading oraA) s

/-- ORA AbsoluteY, opcode 0x19 (41_logic_bit.md R151). -/
def execOraAbsoluteY (addr : Word) (s : State) : Host.Outcome State Fault Refusal :=
  execute (.oraAbsoluteY addr) (reading oraA) s

/-- ORA AbsoluteX, opcode 0x1D (41_logic_bit.md R151). -/
def execOraAbsoluteX (addr : Word) (s : State) : Host.Outcome State Fault Refusal :=
  execute (.oraAbsoluteX addr) (reading oraA) s

/-- EOR IndirectX, opcode 0x41 (41_logic_bit.md R152). -/
def execEorIndirectX (zp : Byte) (s : State) : Host.Outcome State Fault Refusal :=
  execute (.eorIndirectX zp) (reading eorA) s

/-- EOR Zeropage, opcode 0x45 (41_logic_bit.md R152). -/
def execEorZeropage (zp : Byte) (s : State) : Host.Outcome State Fault Refusal :=
  execute (.eorZeropage zp) (reading eorA) s

/-- EOR Immediate, opcode 0x49 (41_logic_bit.md R152). -/
def execEorImmediate (imm : Byte) (s : State) : Host.Outcome State Fault Refusal :=
  execute (.eorImmediate imm) (reading eorA) s

/-- EOR Absolute, opcode 0x4D (41_logic_bit.md R152). -/
def execEorAbsolute (addr : Word) (s : State) : Host.Outcome State Fault Refusal :=
  execute (.eorAbsolute addr) (reading eorA) s

/-- EOR IndirectY, opcode 0x51 (41_logic_bit.md R152). -/
def execEorIndirectY (zp : Byte) (s : State) : Host.Outcome State Fault Refusal :=
  execute (.eorIndirectY zp) (reading eorA) s

/-- EOR ZeropageX, opcode 0x55 (41_logic_bit.md R152). -/
def execEorZeropageX (zp : Byte) (s : State) : Host.Outcome State Fault Refusal :=
  execute (.eorZeropageX zp) (reading eorA) s

/-- EOR AbsoluteY, opcode 0x59 (41_logic_bit.md R152). -/
def execEorAbsoluteY (addr : Word) (s : State) : Host.Outcome State Fault Refusal :=
  execute (.eorAbsoluteY addr) (reading eorA) s

/-- EOR AbsoluteX, opcode 0x5D (41_logic_bit.md R152). -/
def execEorAbsoluteX (addr : Word) (s : State) : Host.Outcome State Fault Refusal :=
  execute (.eorAbsoluteX addr) (reading eorA) s

/-- BIT Zeropage, opcode 0x24 (41_logic_bit.md R153). -/
def execBitZeropage (zp : Byte) (s : State) : Host.Outcome State Fault Refusal :=
  execute (.bitZeropage zp) (reading bitTest) s

/-- BIT Absolute, opcode 0x2C (41_logic_bit.md R153). -/
def execBitAbsolute (addr : Word) (s : State) : Host.Outcome State Fault Refusal :=
  execute (.bitAbsolute addr) (reading bitTest) s

end Sys2Proof.Machine
end

