-- ==== Sys2Proof/Machine/Shift.lean ====
section
/-! DEFINITION. ASL, LSR, ROL and ROR on the accumulator or a memory byte (42_shift.md R170 to R174). -/

namespace Sys2Proof.Machine

/-- A shift's result with N and Z of it and C the bit shifted out (42_shift.md R170 to R174). -/
def shifting (f : Byte → Bool → Byte × Bool) (v p : Byte) : Byte × Byte :=
  let (r, out) := f v (getFlag p .c)
  (r, setNZC p r out)

/-- ASL Zeropage, opcode 0x06 (42_shift.md R171). -/
def execAslZeropage (zp : Byte) (s : State) : Host.Outcome State Fault Refusal :=
  execute (.aslZeropage zp) (modifying (shifting shiftAsl)) s

/-- ASL Accumulator, opcode 0x0A (42_shift.md R171). -/
def execAslAccumulator (s : State) : Host.Outcome State Fault Refusal :=
  execute .aslAccumulator (modifying (shifting shiftAsl)) s

/-- ASL Absolute, opcode 0x0E (42_shift.md R171). -/
def execAslAbsolute (addr : Word) (s : State) : Host.Outcome State Fault Refusal :=
  execute (.aslAbsolute addr) (modifying (shifting shiftAsl)) s

/-- ASL ZeropageX, opcode 0x16 (42_shift.md R171). -/
def execAslZeropageX (zp : Byte) (s : State) : Host.Outcome State Fault Refusal :=
  execute (.aslZeropageX zp) (modifying (shifting shiftAsl)) s

/-- ASL AbsoluteX, opcode 0x1E (42_shift.md R171). -/
def execAslAbsoluteX (addr : Word) (s : State) : Host.Outcome State Fault Refusal :=
  execute (.aslAbsoluteX addr) (modifying (shifting shiftAsl)) s

/-- LSR Zeropage, opcode 0x46 (42_shift.md R172). -/
def execLsrZeropage (zp : Byte) (s : State) : Host.Outcome State Fault Refusal :=
  execute (.lsrZeropage zp) (modifying (shifting shiftLsr)) s

/-- LSR Accumulator, opcode 0x4A (42_shift.md R172). -/
def execLsrAccumulator (s : State) : Host.Outcome State Fault Refusal :=
  execute .lsrAccumulator (modifying (shifting shiftLsr)) s

/-- LSR Absolute, opcode 0x4E (42_shift.md R172). -/
def execLsrAbsolute (addr : Word) (s : State) : Host.Outcome State Fault Refusal :=
  execute (.lsrAbsolute addr) (modifying (shifting shiftLsr)) s

/-- LSR ZeropageX, opcode 0x56 (42_shift.md R172). -/
def execLsrZeropageX (zp : Byte) (s : State) : Host.Outcome State Fault Refusal :=
  execute (.lsrZeropageX zp) (modifying (shifting shiftLsr)) s

/-- LSR AbsoluteX, opcode 0x5E (42_shift.md R172). -/
def execLsrAbsoluteX (addr : Word) (s : State) : Host.Outcome State Fault Refusal :=
  execute (.lsrAbsoluteX addr) (modifying (shifting shiftLsr)) s

/-- ROL Zeropage, opcode 0x26 (42_shift.md R173). -/
def execRolZeropage (zp : Byte) (s : State) : Host.Outcome State Fault Refusal :=
  execute (.rolZeropage zp) (modifying (shifting shiftRol)) s

/-- ROL Accumulator, opcode 0x2A (42_shift.md R173). -/
def execRolAccumulator (s : State) : Host.Outcome State Fault Refusal :=
  execute .rolAccumulator (modifying (shifting shiftRol)) s

/-- ROL Absolute, opcode 0x2E (42_shift.md R173). -/
def execRolAbsolute (addr : Word) (s : State) : Host.Outcome State Fault Refusal :=
  execute (.rolAbsolute addr) (modifying (shifting shiftRol)) s

/-- ROL ZeropageX, opcode 0x36 (42_shift.md R173). -/
def execRolZeropageX (zp : Byte) (s : State) : Host.Outcome State Fault Refusal :=
  execute (.rolZeropageX zp) (modifying (shifting shiftRol)) s

/-- ROL AbsoluteX, opcode 0x3E (42_shift.md R173). -/
def execRolAbsoluteX (addr : Word) (s : State) : Host.Outcome State Fault Refusal :=
  execute (.rolAbsoluteX addr) (modifying (shifting shiftRol)) s

/-- ROR Zeropage, opcode 0x66 (42_shift.md R174). -/
def execRorZeropage (zp : Byte) (s : State) : Host.Outcome State Fault Refusal :=
  execute (.rorZeropage zp) (modifying (shifting shiftRor)) s

/-- ROR Accumulator, opcode 0x6A (42_shift.md R174). -/
def execRorAccumulator (s : State) : Host.Outcome State Fault Refusal :=
  execute .rorAccumulator (modifying (shifting shiftRor)) s

/-- ROR Absolute, opcode 0x6E (42_shift.md R174). -/
def execRorAbsolute (addr : Word) (s : State) : Host.Outcome State Fault Refusal :=
  execute (.rorAbsolute addr) (modifying (shifting shiftRor)) s

/-- ROR ZeropageX, opcode 0x76 (42_shift.md R174). -/
def execRorZeropageX (zp : Byte) (s : State) : Host.Outcome State Fault Refusal :=
  execute (.rorZeropageX zp) (modifying (shifting shiftRor)) s

/-- ROR AbsoluteX, opcode 0x7E (42_shift.md R174). -/
def execRorAbsoluteX (addr : Word) (s : State) : Host.Outcome State Fault Refusal :=
  execute (.rorAbsoluteX addr) (modifying (shifting shiftRor)) s

end Sys2Proof.Machine
end

