-- ==== Sys2Proof/Machine/Branch.lean ====
section
/-! DEFINITION. The eight conditional branches and BRK (43_branch_brk.md R190 to R199). Which flag each branch tests is
PRESUMED by the spec (G15; log 10). -/

namespace Sys2Proof.Machine

/-- The target of a branch from the advanced PC (43_branch_brk.md R190). -/
def branchTarget (base : Word) (disp : Byte) : Word := base + sext16 disp

/-- The extra cycles of a taken branch: one, and one more where the target is not in the page of the advanced PC
(43_branch_brk.md R190; C1). -/
def branchCycles (base target : Word) : Nat :=
  if hiByte target = hiByte base then 1 else 2

/-- `Branch(cond)` (43_branch_brk.md R190): a branch on a flag having a value. -/
def branching (f : Flag) (value : Bool) : Handler := fun d s =>
  let target := branchTarget s.pc (loByte d.operand)
  some (if s.flag f = value then (s.setPc target, branchCycles s.pc target) else (s, 0))

/-- BRK's effect: the return address is the advanced PC plus 1 (43_branch_brk.md R199; D5, DEDUCED, log 12). -/
def breakTrap (s : State) : State := enterTrap (s.pc + 1#16) Config.brkVector s

/-- BPL Branch, opcode 0x10 (43_branch_brk.md R191). -/
def execBpl (disp : Byte) (s : State) : Host.Outcome State Fault Refusal :=
  execute (.bpl disp) (branching .n false) s

/-- BMI Branch, opcode 0x30 (43_branch_brk.md R192). -/
def execBmi (disp : Byte) (s : State) : Host.Outcome State Fault Refusal :=
  execute (.bmi disp) (branching .n true) s

/-- BVC Branch, opcode 0x50 (43_branch_brk.md R193). -/
def execBvc (disp : Byte) (s : State) : Host.Outcome State Fault Refusal :=
  execute (.bvc disp) (branching .v false) s

/-- BVS Branch, opcode 0x70 (43_branch_brk.md R194). -/
def execBvs (disp : Byte) (s : State) : Host.Outcome State Fault Refusal :=
  execute (.bvs disp) (branching .v true) s

/-- BCC Branch, opcode 0x90 (43_branch_brk.md R195). -/
def execBcc (disp : Byte) (s : State) : Host.Outcome State Fault Refusal :=
  execute (.bcc disp) (branching .c false) s

/-- BCS Branch, opcode 0xB0 (43_branch_brk.md R196). -/
def execBcs (disp : Byte) (s : State) : Host.Outcome State Fault Refusal :=
  execute (.bcs disp) (branching .c true) s

/-- BNE Branch, opcode 0xD0 (43_branch_brk.md R197). -/
def execBne (disp : Byte) (s : State) : Host.Outcome State Fault Refusal :=
  execute (.bne disp) (branching .z false) s

/-- BEQ Branch, opcode 0xF0 (43_branch_brk.md R198). -/
def execBeq (disp : Byte) (s : State) : Host.Outcome State Fault Refusal :=
  execute (.beq disp) (branching .z true) s

/-- BRK, opcode 0x00 (43_branch_brk.md R199). -/
def execBrk (s : State) : Host.Outcome State Fault Refusal :=
  execute .brk (implied breakTrap) s

end Sys2Proof.Machine
end

