-- ==== Sys2Proof/Machine/CompareIncDec.lean ====
section
/-! DEFINITION. CMP, CPX, CPY, DEC, INC, DEX, DEY, INX and INY (44_compare_incdec.md R210 to R219). -/

namespace Sys2Proof.Machine

/-- A compare of a register's value with the operand: P alone (44_compare_incdec.md R210). -/
def comparing (register : State → Byte) (v : Byte) (s : State) : State :=
  s.setP (compareFlags s.p (register s) v)

/-- DEC's result and flags (44_compare_incdec.md R214). -/
def decrement (v p : Byte) : Byte × Byte := (v - 1#8, setNZ p (v - 1#8))

/-- INC's result and flags (44_compare_incdec.md R215). -/
def increment (v p : Byte) : Byte × Byte := (v + 1#8, setNZ p (v + 1#8))

/-- X and the flags N and Z of it. -/
def State.setXNZ (s : State) (r : Byte) : State := (s.setX r).setP (setNZ s.p r)

/-- Y and the flags N and Z of it. -/
def State.setYNZ (s : State) (r : Byte) : State := (s.setY r).setP (setNZ s.p r)

/-- CMP IndirectX, opcode 0xC1 (44_compare_incdec.md R211). -/
def execCmpIndirectX (zp : Byte) (s : State) : Host.Outcome State Fault Refusal :=
  execute (.cmpIndirectX zp) (reading (comparing State.a)) s

/-- CMP Zeropage, opcode 0xC5 (44_compare_incdec.md R211). -/
def execCmpZeropage (zp : Byte) (s : State) : Host.Outcome State Fault Refusal :=
  execute (.cmpZeropage zp) (reading (comparing State.a)) s

/-- CMP Immediate, opcode 0xC9 (44_compare_incdec.md R211). -/
def execCmpImmediate (imm : Byte) (s : State) : Host.Outcome State Fault Refusal :=
  execute (.cmpImmediate imm) (reading (comparing State.a)) s

/-- CMP Absolute, opcode 0xCD (44_compare_incdec.md R211). -/
def execCmpAbsolute (addr : Word) (s : State) : Host.Outcome State Fault Refusal :=
  execute (.cmpAbsolute addr) (reading (comparing State.a)) s

/-- CMP IndirectY, opcode 0xD1 (44_compare_incdec.md R211). -/
def execCmpIndirectY (zp : Byte) (s : State) : Host.Outcome State Fault Refusal :=
  execute (.cmpIndirectY zp) (reading (comparing State.a)) s

/-- CMP ZeropageX, opcode 0xD5 (44_compare_incdec.md R211). -/
def execCmpZeropageX (zp : Byte) (s : State) : Host.Outcome State Fault Refusal :=
  execute (.cmpZeropageX zp) (reading (comparing State.a)) s

/-- CMP AbsoluteY, opcode 0xD9 (44_compare_incdec.md R211). -/
def execCmpAbsoluteY (addr : Word) (s : State) : Host.Outcome State Fault Refusal :=
  execute (.cmpAbsoluteY addr) (reading (comparing State.a)) s

/-- CMP AbsoluteX, opcode 0xDD (44_compare_incdec.md R211). -/
def execCmpAbsoluteX (addr : Word) (s : State) : Host.Outcome State Fault Refusal :=
  execute (.cmpAbsoluteX addr) (reading (comparing State.a)) s

/-- CPX Immediate, opcode 0xE0 (44_compare_incdec.md R212). -/
def execCpxImmediate (imm : Byte) (s : State) : Host.Outcome State Fault Refusal :=
  execute (.cpxImmediate imm) (reading (comparing State.x)) s

/-- CPX Zeropage, opcode 0xE4 (44_compare_incdec.md R212). -/
def execCpxZeropage (zp : Byte) (s : State) : Host.Outcome State Fault Refusal :=
  execute (.cpxZeropage zp) (reading (comparing State.x)) s

/-- CPX Absolute, opcode 0xEC (44_compare_incdec.md R212). -/
def execCpxAbsolute (addr : Word) (s : State) : Host.Outcome State Fault Refusal :=
  execute (.cpxAbsolute addr) (reading (comparing State.x)) s

/-- CPY Immediate, opcode 0xC0 (44_compare_incdec.md R213). -/
def execCpyImmediate (imm : Byte) (s : State) : Host.Outcome State Fault Refusal :=
  execute (.cpyImmediate imm) (reading (comparing State.y)) s

/-- CPY Zeropage, opcode 0xC4 (44_compare_incdec.md R213). -/
def execCpyZeropage (zp : Byte) (s : State) : Host.Outcome State Fault Refusal :=
  execute (.cpyZeropage zp) (reading (comparing State.y)) s

/-- CPY Absolute, opcode 0xCC (44_compare_incdec.md R213). -/
def execCpyAbsolute (addr : Word) (s : State) : Host.Outcome State Fault Refusal :=
  execute (.cpyAbsolute addr) (reading (comparing State.y)) s

/-- DEC Zeropage, opcode 0xC6 (44_compare_incdec.md R214). -/
def execDecZeropage (zp : Byte) (s : State) : Host.Outcome State Fault Refusal :=
  execute (.decZeropage zp) (modifying decrement) s

/-- DEC Absolute, opcode 0xCE (44_compare_incdec.md R214). -/
def execDecAbsolute (addr : Word) (s : State) : Host.Outcome State Fault Refusal :=
  execute (.decAbsolute addr) (modifying decrement) s

/-- DEC ZeropageX, opcode 0xD6 (44_compare_incdec.md R214). -/
def execDecZeropageX (zp : Byte) (s : State) : Host.Outcome State Fault Refusal :=
  execute (.decZeropageX zp) (modifying decrement) s

/-- DEC AbsoluteX, opcode 0xDE (44_compare_incdec.md R214). -/
def execDecAbsoluteX (addr : Word) (s : State) : Host.Outcome State Fault Refusal :=
  execute (.decAbsoluteX addr) (modifying decrement) s

/-- INC Zeropage, opcode 0xE6 (44_compare_incdec.md R215). -/
def execIncZeropage (zp : Byte) (s : State) : Host.Outcome State Fault Refusal :=
  execute (.incZeropage zp) (modifying increment) s

/-- INC Absolute, opcode 0xEE (44_compare_incdec.md R215). -/
def execIncAbsolute (addr : Word) (s : State) : Host.Outcome State Fault Refusal :=
  execute (.incAbsolute addr) (modifying increment) s

/-- INC ZeropageX, opcode 0xF6 (44_compare_incdec.md R215). -/
def execIncZeropageX (zp : Byte) (s : State) : Host.Outcome State Fault Refusal :=
  execute (.incZeropageX zp) (modifying increment) s

/-- INC AbsoluteX, opcode 0xFE (44_compare_incdec.md R215). -/
def execIncAbsoluteX (addr : Word) (s : State) : Host.Outcome State Fault Refusal :=
  execute (.incAbsoluteX addr) (modifying increment) s

/-- DEX, opcode 0xCA (44_compare_incdec.md R216). -/
def execDex (s : State) : Host.Outcome State Fault Refusal :=
  execute .dex (implied fun s => s.setXNZ (s.x - 1#8)) s

/-- DEY, opcode 0x88 (44_compare_incdec.md R217). -/
def execDey (s : State) : Host.Outcome State Fault Refusal :=
  execute .dey (implied fun s => s.setYNZ (s.y - 1#8)) s

/-- INX, opcode 0xE8 (44_compare_incdec.md R218). -/
def execInx (s : State) : Host.Outcome State Fault Refusal :=
  execute .inx (implied fun s => s.setXNZ (s.x + 1#8)) s

/-- INY, opcode 0xC8 (44_compare_incdec.md R219). -/
def execIny (s : State) : Host.Outcome State Fault Refusal :=
  execute .iny (implied fun s => s.setYNZ (s.y + 1#8)) s

end Sys2Proof.Machine
end

