-- ==== Sys2Proof/Machine/Jump.lean ====
section
/-! DEFINITION. JMP, JSR, RTS and RTI (45_jump.md R240 to R243). -/

namespace Sys2Proof.Machine

/-- JMP's indirect form: PC from the decoded value, which in Indirect mode is the 16-bit `ea`
(45_jump.md R240; 30_encoding.md R108). -/
def jumpingByValue : Handler := fun d s =>
  match decodedValue d s with
  | .word w => some (s.setPc w, 0)
  | .byte _ => none
  | .none => none

/-- JSR's push: the address of its own last byte (45_jump.md R241). -/
def pushReturn (s : State) : State := pushWord (s.pc - 1#16) s

/-- RTS's effect (45_jump.md R242). -/
def returnFromSubroutine (s : State) : State :=
  let (w, s1) := popWord s
  s1.setPc (w + 1#16)

/-- JMP Absolute, opcode 0x4C (45_jump.md R240). -/
def execJmpAbsolute (addr : Word) (s : State) : Host.Outcome State Fault Refusal :=
  execute (.jmpAbsolute addr) (jumping fun s => s) s

/-- JMP Indirect, opcode 0x6C (45_jump.md R240). -/
def execJmpIndirect (ptr : Word) (s : State) : Host.Outcome State Fault Refusal :=
  execute (.jmpIndirect ptr) jumpingByValue s

/-- JSR Absolute, opcode 0x20 (45_jump.md R241). -/
def execJsr (addr : Word) (s : State) : Host.Outcome State Fault Refusal :=
  execute (.jsr addr) (jumping pushReturn) s

/-- RTS, opcode 0x60 (45_jump.md R242). -/
def execRts (s : State) : Host.Outcome State Fault Refusal :=
  execute .rts (implied returnFromSubroutine) s

/-- RTI, opcode 0x40 (45_jump.md R243). -/
def execRti (s : State) : Host.Outcome State Fault Refusal :=
  execute .rti (implied returnFromTrap) s

end Sys2Proof.Machine
end

