-- ==== Sys2Proof/Machine/LoadStore.lean ====
section
/-! DEFINITION. LDA, LDX, LDY, STA, STX and STY (46_load_store.md R260 to R265). -/

namespace Sys2Proof.Machine

/-- LDA's effect (46_load_store.md R260). -/
def loadA (v : Byte) (s : State) : State := s.setANZ v

/-- LDX's effect (46_load_store.md R261). -/
def loadX (v : Byte) (s : State) : State := s.setXNZ v

/-- LDY's effect (46_load_store.md R262). -/
def loadY (v : Byte) (s : State) : State := s.setYNZ v

/-- LDA IndirectX, opcode 0xA1 (46_load_store.md R260). -/
def execLdaIndirectX (zp : Byte) (s : State) : Host.Outcome State Fault Refusal :=
  execute (.ldaIndirectX zp) (reading loadA) s

/-- LDA Zeropage, opcode 0xA5 (46_load_store.md R260). -/
def execLdaZeropage (zp : Byte) (s : State) : Host.Outcome State Fault Refusal :=
  execute (.ldaZeropage zp) (reading loadA) s

/-- LDA Immediate, opcode 0xA9 (46_load_store.md R260). -/
def execLdaImmediate (imm : Byte) (s : State) : Host.Outcome State Fault Refusal :=
  execute (.ldaImmediate imm) (reading loadA) s

/-- LDA Absolute, opcode 0xAD (46_load_store.md R260). -/
def execLdaAbsolute (addr : Word) (s : State) : Host.Outcome State Fault Refusal :=
  execute (.ldaAbsolute addr) (reading loadA) s

/-- LDA IndirectY, opcode 0xB1 (46_load_store.md R260). -/
def execLdaIndirectY (zp : Byte) (s : State) : Host.Outcome State Fault Refusal :=
  execute (.ldaIndirectY zp) (reading loadA) s

/-- LDA ZeropageX, opcode 0xB5 (46_load_store.md R260). -/
def execLdaZeropageX (zp : Byte) (s : State) : Host.Outcome State Fault Refusal :=
  execute (.ldaZeropageX zp) (reading loadA) s

/-- LDA AbsoluteY, opcode 0xB9 (46_load_store.md R260). -/
def execLdaAbsoluteY (addr : Word) (s : State) : Host.Outcome State Fault Refusal :=
  execute (.ldaAbsoluteY addr) (reading loadA) s

/-- LDA AbsoluteX, opcode 0xBD (46_load_store.md R260). -/
def execLdaAbsoluteX (addr : Word) (s : State) : Host.Outcome State Fault Refusal :=
  execute (.ldaAbsoluteX addr) (reading loadA) s

/-- LDX Immediate, opcode 0xA2 (46_load_store.md R261). -/
def execLdxImmediate (imm : Byte) (s : State) : Host.Outcome State Fault Refusal :=
  execute (.ldxImmediate imm) (reading loadX) s

/-- LDX Zeropage, opcode 0xA6 (46_load_store.md R261). -/
def execLdxZeropage (zp : Byte) (s : State) : Host.Outcome State Fault Refusal :=
  execute (.ldxZeropage zp) (reading loadX) s

/-- LDX Absolute, opcode 0xAE (46_load_store.md R261). -/
def execLdxAbsolute (addr : Word) (s : State) : Host.Outcome State Fault Refusal :=
  execute (.ldxAbsolute addr) (reading loadX) s

/-- LDX ZeropageY, opcode 0xB6 (46_load_store.md R261). -/
def execLdxZeropageY (zp : Byte) (s : State) : Host.Outcome State Fault Refusal :=
  execute (.ldxZeropageY zp) (reading loadX) s

/-- LDX AbsoluteY, opcode 0xBE (46_load_store.md R261). -/
def execLdxAbsoluteY (addr : Word) (s : State) : Host.Outcome State Fault Refusal :=
  execute (.ldxAbsoluteY addr) (reading loadX) s

/-- LDY Immediate, opcode 0xA0 (46_load_store.md R262). -/
def execLdyImmediate (imm : Byte) (s : State) : Host.Outcome State Fault Refusal :=
  execute (.ldyImmediate imm) (reading loadY) s

/-- LDY Zeropage, opcode 0xA4 (46_load_store.md R262). -/
def execLdyZeropage (zp : Byte) (s : State) : Host.Outcome State Fault Refusal :=
  execute (.ldyZeropage zp) (reading loadY) s

/-- LDY Absolute, opcode 0xAC (46_load_store.md R262). -/
def execLdyAbsolute (addr : Word) (s : State) : Host.Outcome State Fault Refusal :=
  execute (.ldyAbsolute addr) (reading loadY) s

/-- LDY ZeropageX, opcode 0xB4 (46_load_store.md R262). -/
def execLdyZeropageX (zp : Byte) (s : State) : Host.Outcome State Fault Refusal :=
  execute (.ldyZeropageX zp) (reading loadY) s

/-- LDY AbsoluteX, opcode 0xBC (46_load_store.md R262). -/
def execLdyAbsoluteX (addr : Word) (s : State) : Host.Outcome State Fault Refusal :=
  execute (.ldyAbsoluteX addr) (reading loadY) s

/-- STA IndirectX, opcode 0x81 (46_load_store.md R263). -/
def execStaIndirectX (zp : Byte) (s : State) : Host.Outcome State Fault Refusal :=
  execute (.staIndirectX zp) (storing State.a) s

/-- STA Zeropage, opcode 0x85 (46_load_store.md R263). -/
def execStaZeropage (zp : Byte) (s : State) : Host.Outcome State Fault Refusal :=
  execute (.staZeropage zp) (storing State.a) s

/-- STA Absolute, opcode 0x8D (46_load_store.md R263). -/
def execStaAbsolute (addr : Word) (s : State) : Host.Outcome State Fault Refusal :=
  execute (.staAbsolute addr) (storing State.a) s

/-- STA IndirectY, opcode 0x91 (46_load_store.md R263). -/
def execStaIndirectY (zp : Byte) (s : State) : Host.Outcome State Fault Refusal :=
  execute (.staIndirectY zp) (storing State.a) s

/-- STA ZeropageX, opcode 0x95 (46_load_store.md R263). -/
def execStaZeropageX (zp : Byte) (s : State) : Host.Outcome State Fault Refusal :=
  execute (.staZeropageX zp) (storing State.a) s

/-- STA AbsoluteY, opcode 0x99 (46_load_store.md R263). -/
def execStaAbsoluteY (addr : Word) (s : State) : Host.Outcome State Fault Refusal :=
  execute (.staAbsoluteY addr) (storing State.a) s

/-- STA AbsoluteX, opcode 0x9D (46_load_store.md R263). -/
def execStaAbsoluteX (addr : Word) (s : State) : Host.Outcome State Fault Refusal :=
  execute (.staAbsoluteX addr) (storing State.a) s

/-- STX Zeropage, opcode 0x86 (46_load_store.md R264). -/
def execStxZeropage (zp : Byte) (s : State) : Host.Outcome State Fault Refusal :=
  execute (.stxZeropage zp) (storing State.x) s

/-- STX Absolute, opcode 0x8E (46_load_store.md R264). -/
def execStxAbsolute (addr : Word) (s : State) : Host.Outcome State Fault Refusal :=
  execute (.stxAbsolute addr) (storing State.x) s

/-- STX ZeropageY, opcode 0x96 (46_load_store.md R264). -/
def execStxZeropageY (zp : Byte) (s : State) : Host.Outcome State Fault Refusal :=
  execute (.stxZeropageY zp) (storing State.x) s

/-- STY Zeropage, opcode 0x84 (46_load_store.md R265). -/
def execStyZeropage (zp : Byte) (s : State) : Host.Outcome State Fault Refusal :=
  execute (.styZeropage zp) (storing State.y) s

/-- STY Absolute, opcode 0x8C (46_load_store.md R265). -/
def execStyAbsolute (addr : Word) (s : State) : Host.Outcome State Fault Refusal :=
  execute (.styAbsolute addr) (storing State.y) s

/-- STY ZeropageX, opcode 0x94 (46_load_store.md R265). -/
def execStyZeropageX (zp : Byte) (s : State) : Host.Outcome State Fault Refusal :=
  execute (.styZeropageX zp) (storing State.y) s

end Sys2Proof.Machine
end

