-- ==== Sys2Proof/Machine/StackTransfer.lean ====
section
/-! DEFINITION. PHA, PHP, PLA, PLP and the register transfers (47_stack_transfer.md R280 to R289). -/

namespace Sys2Proof.Machine

/-- PHP's effect: the pushed copy has B and U set, P itself is not changed (47_stack_transfer.md R281). -/
def pushFlags (s : State) : State := push (s.p ||| breakUnused) s

/-- PLA's effect (47_stack_transfer.md R282; D16, PRESUMED, log 16). -/
def pullA (s : State) : State :=
  let (v, s1) := pop s
  s1.setANZ v

/-- PLP's effect (47_stack_transfer.md R283; D4, DEDUCED, log 5). -/
def pullFlags (s : State) : State :=
  let (v, s1) := pop s
  s1.setP (pulledFlags s1.params v)

/-- PHA, opcode 0x48 (47_stack_transfer.md R280). -/
def execPha (s : State) : Host.Outcome State Fault Refusal :=
  execute .pha (implied fun s => push s.a s) s

/-- PHP, opcode 0x08 (47_stack_transfer.md R281). -/
def execPhp (s : State) : Host.Outcome State Fault Refusal :=
  execute .php (implied pushFlags) s

/-- PLA, opcode 0x68 (47_stack_transfer.md R282). -/
def execPla (s : State) : Host.Outcome State Fault Refusal :=
  execute .pla (implied pullA) s

/-- PLP, opcode 0x28 (47_stack_transfer.md R283). -/
def execPlp (s : State) : Host.Outcome State Fault Refusal :=
  execute .plp (implied pullFlags) s

/-- TAX, opcode 0xAA (47_stack_transfer.md R284). -/
def execTax (s : State) : Host.Outcome State Fault Refusal :=
  execute .tax (implied fun s => s.setXNZ s.a) s

/-- TXA, opcode 0x8A (47_stack_transfer.md R285). -/
def execTxa (s : State) : Host.Outcome State Fault Refusal :=
  execute .txa (implied fun s => s.setANZ s.x) s

/-- TAY, opcode 0xA8 (47_stack_transfer.md R286). -/
def execTay (s : State) : Host.Outcome State Fault Refusal :=
  execute .tay (implied fun s => s.setYNZ s.a) s

/-- TYA, opcode 0x98 (47_stack_transfer.md R287). -/
def execTya (s : State) : Host.Outcome State Fault Refusal :=
  execute .tya (implied fun s => s.setANZ s.y) s

/-- TSX, opcode 0xBA (47_stack_transfer.md R288). -/
def execTsx (s : State) : Host.Outcome State Fault Refusal :=
  execute .tsx (implied fun s => s.setXNZ s.sp) s

/-- TXS, opcode 0x9A (47_stack_transfer.md R289). -/
def execTxs (s : State) : Host.Outcome State Fault Refusal :=
  execute .txs (implied fun s => s.setSp s.x) s

end Sys2Proof.Machine
end

