-- ==== Sys2Proof/Machine/FlagsNop.lean ====
section
/-! DEFINITION. The flag instructions, NOP and the unimplemented stub (48_flags_nop.md R310 to R318). -/

namespace Sys2Proof.Machine

/-- A single-flag write (48_flags_nop.md R310 to R316). -/
def writing (f : Flag) (v : Bool) (s : State) : State := s.setP (setFlag s.p f v)

/-- SEC, opcode 0x38 (48_flags_nop.md R310). -/
def execSec (s : State) : Host.Outcome State Fault Refusal :=
  execute .sec (implied (writing .c true)) s

/-- CLC, opcode 0x18 (48_flags_nop.md R311). -/
def execClc (s : State) : Host.Outcome State Fault Refusal :=
  execute .clc (implied (writing .c false)) s

/-- SED, opcode 0xF8 (48_flags_nop.md R312). -/
def execSed (s : State) : Host.Outcome State Fault Refusal :=
  execute .sed (implied (writing .d true)) s

/-- CLD, opcode 0xD8 (48_flags_nop.md R313). -/
def execCld (s : State) : Host.Outcome State Fault Refusal :=
  execute .cld (implied (writing .d false)) s

/-- SEI, opcode 0x78 (48_flags_nop.md R314). -/
def execSei (s : State) : Host.Outcome State Fault Refusal :=
  execute .sei (implied (writing .i true)) s

/-- CLI, opcode 0x58 (48_flags_nop.md R315). -/
def execCli (s : State) : Host.Outcome State Fault Refusal :=
  execute .cli (implied (writing .i false)) s

/-- CLV, opcode 0xB8 (48_flags_nop.md R316). -/
def execClv (s : State) : Host.Outcome State Fault Refusal :=
  execute .clv (implied (writing .v false)) s

/-- NOP, opcode 0xEA (48_flags_nop.md R317). -/
def execNop (s : State) : Host.Outcome State Fault Refusal :=
  execute .nop (implied fun s => s) s

/-- The unimplemented stub, opcode `opcode` (48_flags_nop.md R318; 60_exceptions.md R341; D1, DEDUCED, log 4): under
Fault the step raises UnimplementedOpcode before any state changes; under NoOp it advances PC by 1 and adds 0 to CYC. -/
def execUnimplemented (opcode : Byte) (s : State) : Host.Outcome State Fault Refusal :=
  match s.params.unimplPolicy with
  | .fault => .fault (.unimplementedOpcode opcode s.pc)
  | .noOp => execute (.unimplemented opcode) (implied fun s => s) s

end Sys2Proof.Machine
end

