-- ==== Sys2Proof/Machine/Dispatch.lean ====
section
/-! DEFINITION. The dispatch of an instruction to its meaning (30_encoding.md R112: "invoke the handler"). -/

namespace Sys2Proof.Machine

-- One arm per constructor, in the order of the families.
def exec (i : Instr) (s : State) : Host.Outcome State Fault Refusal :=
  match i with
  | .adcIndirectX zp => Sys2Proof.Machine.execAdcIndirectX zp s
  | .adcZeropage zp => Sys2Proof.Machine.execAdcZeropage zp s
  | .adcImmediate imm => Sys2Proof.Machine.execAdcImmediate imm s
  | .adcAbsolute addr => Sys2Proof.Machine.execAdcAbsolute addr s
  | .adcIndirectY zp => Sys2Proof.Machine.execAdcIndirectY zp s
  | .adcZeropageX zp => Sys2Proof.Machine.execAdcZeropageX zp s
  | .adcAbsoluteY addr => Sys2Proof.Machine.execAdcAbsoluteY addr s
  | .adcAbsoluteX addr => Sys2Proof.Machine.execAdcAbsoluteX addr s
  | .sbcIndirectX zp => Sys2Proof.Machine.execSbcIndirectX zp s
  | .sbcZeropage zp => Sys2Proof.Machine.execSbcZeropage zp s
  | .sbcImmediate imm => Sys2Proof.Machine.execSbcImmediate imm s
  | .sbcAbsolute addr => Sys2Proof.Machine.execSbcAbsolute addr s
  | .sbcIndirectY zp => Sys2Proof.Machine.execSbcIndirectY zp s
  | .sbcZeropageX zp => Sys2Proof.Machine.execSbcZeropageX zp s
  | .sbcAbsoluteY addr => Sys2Proof.Machine.execSbcAbsoluteY addr s
  | .sbcAbsoluteX addr => Sys2Proof.Machine.execSbcAbsoluteX addr s
  | .andIndirectX zp => Sys2Proof.Machine.execAndIndirectX zp s
  | .andZeropage zp => Sys2Proof.Machine.execAndZeropage zp s
  | .andImmediate imm => Sys2Proof.Machine.execAndImmediate imm s
  | .andAbsolute addr => Sys2Proof.Machine.execAndAbsolute addr s
  | .andIndirectY zp => Sys2Proof.Machine.execAndIndirectY zp s
  | .andZeropageX zp => Sys2Proof.Machine.execAndZeropageX zp s
  | .andAbsoluteY addr => Sys2Proof.Machine.execAndAbsoluteY addr s
  | .andAbsoluteX addr => Sys2Proof.Machine.execAndAbsoluteX addr s
  | .oraIndirectX zp => Sys2Proof.Machine.execOraIndirectX zp s
  | .oraZeropage zp => Sys2Proof.Machine.execOraZeropage zp s
  | .oraImmediate imm => Sys2Proof.Machine.execOraImmediate imm s
  | .oraAbsolute addr => Sys2Proof.Machine.execOraAbsolute addr s
  | .oraIndirectY zp => Sys2Proof.Machine.execOraIndirectY zp s
  | .oraZeropageX zp => Sys2Proof.Machine.execOraZeropageX zp s
  | .oraAbsoluteY addr => Sys2Proof.Machine.execOraAbsoluteY addr s
  | .oraAbsoluteX addr => Sys2Proof.Machine.execOraAbsoluteX addr s
  | .eorIndirectX zp => Sys2Proof.Machine.execEorIndirectX zp s
  | .eorZeropage zp => Sys2Proof.Machine.execEorZeropage zp s
  | .eorImmediate imm => Sys2Proof.Machine.execEorImmediate imm s
  | .eorAbsolute addr => Sys2Proof.Machine.execEorAbsolute addr s
  | .eorIndirectY zp => Sys2Proof.Machine.execEorIndirectY zp s
  | .eorZeropageX zp => Sys2Proof.Machine.execEorZeropageX zp s
  | .eorAbsoluteY addr => Sys2Proof.Machine.execEorAbsoluteY addr s
  | .eorAbsoluteX addr => Sys2Proof.Machine.execEorAbsoluteX addr s
  | .bitZeropage zp => Sys2Proof.Machine.execBitZeropage zp s
  | .bitAbsolute addr => Sys2Proof.Machine.execBitAbsolute addr s
  | .aslZeropage zp => Sys2Proof.Machine.execAslZeropage zp s
  | .aslAccumulator => Sys2Proof.Machine.execAslAccumulator s
  | .aslAbsolute addr => Sys2Proof.Machine.execAslAbsolute addr s
  | .aslZeropageX zp => Sys2Proof.Machine.execAslZeropageX zp s
  | .aslAbsoluteX addr => Sys2Proof.Machine.execAslAbsoluteX addr s
  | .lsrZeropage zp => Sys2Proof.Machine.execLsrZeropage zp s
  | .lsrAccumulator => Sys2Proof.Machine.execLsrAccumulator s
  | .lsrAbsolute addr => Sys2Proof.Machine.execLsrAbsolute addr s
  | .lsrZeropageX zp => Sys2Proof.Machine.execLsrZeropageX zp s
  | .lsrAbsoluteX addr => Sys2Proof.Machine.execLsrAbsoluteX addr s
  | .rolZeropage zp => Sys2Proof.Machine.execRolZeropage zp s
  | .rolAccumulator => Sys2Proof.Machine.execRolAccumulator s
  | .rolAbsolute addr => Sys2Proof.Machine.execRolAbsolute addr s
  | .rolZeropageX zp => Sys2Proof.Machine.execRolZeropageX zp s
  | .rolAbsoluteX addr => Sys2Proof.Machine.execRolAbsoluteX addr s
  | .rorZeropage zp => Sys2Proof.Machine.execRorZeropage zp s
  | .rorAccumulator => Sys2Proof.Machine.execRorAccumulator s
  | .rorAbsolute addr => Sys2Proof.Machine.execRorAbsolute addr s
  | .rorZeropageX zp => Sys2Proof.Machine.execRorZeropageX zp s
  | .rorAbsoluteX addr => Sys2Proof.Machine.execRorAbsoluteX addr s
  | .bpl disp => Sys2Proof.Machine.execBpl disp s
  | .bmi disp => Sys2Proof.Machine.execBmi disp s
  | .bvc disp => Sys2Proof.Machine.execBvc disp s
  | .bvs disp => Sys2Proof.Machine.execBvs disp s
  | .bcc disp => Sys2Proof.Machine.execBcc disp s
  | .bcs disp => Sys2Proof.Machine.execBcs disp s
  | .bne disp => Sys2Proof.Machine.execBne disp s
  | .beq disp => Sys2Proof.Machine.execBeq disp s
  | .brk => Sys2Proof.Machine.execBrk s
  | .cmpIndirectX zp => Sys2Proof.Machine.execCmpIndirectX zp s
  | .cmpZeropage zp => Sys2Proof.Machine.execCmpZeropage zp s
  | .cmpImmediate imm => Sys2Proof.Machine.execCmpImmediate imm s
  | .cmpAbsolute addr => Sys2Proof.Machine.execCmpAbsolute addr s
  | .cmpIndirectY zp => Sys2Proof.Machine.execCmpIndirectY zp s
  | .cmpZeropageX zp => Sys2Proof.Machine.execCmpZeropageX zp s
  | .cmpAbsoluteY addr => Sys2Proof.Machine.execCmpAbsoluteY addr s
  | .cmpAbsoluteX addr => Sys2Proof.Machine.execCmpAbsoluteX addr s
  | .cpxImmediate imm => Sys2Proof.Machine.execCpxImmediate imm s
  | .cpxZeropage zp => Sys2Proof.Machine.execCpxZeropage zp s
  | .cpxAbsolute addr => Sys2Proof.Machine.execCpxAbsolute addr s
  | .cpyImmediate imm => Sys2Proof.Machine.execCpyImmediate imm s
  | .cpyZeropage zp => Sys2Proof.Machine.execCpyZeropage zp s
  | .cpyAbsolute addr => Sys2Proof.Machine.execCpyAbsolute addr s
  | .decZeropage zp => Sys2Proof.Machine.execDecZeropage zp s
  | .decAbsolute addr => Sys2Proof.Machine.execDecAbsolute addr s
  | .decZeropageX zp => Sys2Proof.Machine.execDecZeropageX zp s
  | .decAbsoluteX addr => Sys2Proof.Machine.execDecAbsoluteX addr s
  | .incZeropage zp => Sys2Proof.Machine.execIncZeropage zp s
  | .incAbsolute addr => Sys2Proof.Machine.execIncAbsolute addr s
  | .incZeropageX zp => Sys2Proof.Machine.execIncZeropageX zp s
  | .incAbsoluteX addr => Sys2Proof.Machine.execIncAbsoluteX addr s
  | .dex => Sys2Proof.Machine.execDex s
  | .dey => Sys2Proof.Machine.execDey s
  | .inx => Sys2Proof.Machine.execInx s
  | .iny => Sys2Proof.Machine.execIny s
  | .jmpAbsolute addr => Sys2Proof.Machine.execJmpAbsolute addr s
  | .jmpIndirect ptr => Sys2Proof.Machine.execJmpIndirect ptr s
  | .jsr addr => Sys2Proof.Machine.execJsr addr s
  | .rts => Sys2Proof.Machine.execRts s
  | .rti => Sys2Proof.Machine.execRti s
  | .ldaIndirectX zp => Sys2Proof.Machine.execLdaIndirectX zp s
  | .ldaZeropage zp => Sys2Proof.Machine.execLdaZeropage zp s
  | .ldaImmediate imm => Sys2Proof.Machine.execLdaImmediate imm s
  | .ldaAbsolute addr => Sys2Proof.Machine.execLdaAbsolute addr s
  | .ldaIndirectY zp => Sys2Proof.Machine.execLdaIndirectY zp s
  | .ldaZeropageX zp => Sys2Proof.Machine.execLdaZeropageX zp s
  | .ldaAbsoluteY addr => Sys2Proof.Machine.execLdaAbsoluteY addr s
  | .ldaAbsoluteX addr => Sys2Proof.Machine.execLdaAbsoluteX addr s
  | .ldxImmediate imm => Sys2Proof.Machine.execLdxImmediate imm s
  | .ldxZeropage zp => Sys2Proof.Machine.execLdxZeropage zp s
  | .ldxAbsolute addr => Sys2Proof.Machine.execLdxAbsolute addr s
  | .ldxZeropageY zp => Sys2Proof.Machine.execLdxZeropageY zp s
  | .ldxAbsoluteY addr => Sys2Proof.Machine.execLdxAbsoluteY addr s
  | .ldyImmediate imm => Sys2Proof.Machine.execLdyImmediate imm s
  | .ldyZeropage zp => Sys2Proof.Machine.execLdyZeropage zp s
  | .ldyAbsolute addr => Sys2Proof.Machine.execLdyAbsolute addr s
  | .ldyZeropageX zp => Sys2Proof.Machine.execLdyZeropageX zp s
  | .ldyAbsoluteX addr => Sys2Proof.Machine.execLdyAbsoluteX addr s
  | .staIndirectX zp => Sys2Proof.Machine.execStaIndirectX zp s
  | .staZeropage zp => Sys2Proof.Machine.execStaZeropage zp s
  | .staAbsolute addr => Sys2Proof.Machine.execStaAbsolute addr s
  | .staIndirectY zp => Sys2Proof.Machine.execStaIndirectY zp s
  | .staZeropageX zp => Sys2Proof.Machine.execStaZeropageX zp s
  | .staAbsoluteY addr => Sys2Proof.Machine.execStaAbsoluteY addr s
  | .staAbsoluteX addr => Sys2Proof.Machine.execStaAbsoluteX addr s
  | .stxZeropage zp => Sys2Proof.Machine.execStxZeropage zp s
  | .stxAbsolute addr => Sys2Proof.Machine.execStxAbsolute addr s
  | .stxZeropageY zp => Sys2Proof.Machine.execStxZeropageY zp s
  | .styZeropage zp => Sys2Proof.Machine.execStyZeropage zp s
  | .styAbsolute addr => Sys2Proof.Machine.execStyAbsolute addr s
  | .styZeropageX zp => Sys2Proof.Machine.execStyZeropageX zp s
  | .pha => Sys2Proof.Machine.execPha s
  | .php => Sys2Proof.Machine.execPhp s
  | .pla => Sys2Proof.Machine.execPla s
  | .plp => Sys2Proof.Machine.execPlp s
  | .tax => Sys2Proof.Machine.execTax s
  | .txa => Sys2Proof.Machine.execTxa s
  | .tay => Sys2Proof.Machine.execTay s
  | .tya => Sys2Proof.Machine.execTya s
  | .tsx => Sys2Proof.Machine.execTsx s
  | .txs => Sys2Proof.Machine.execTxs s
  | .sec => Sys2Proof.Machine.execSec s
  | .clc => Sys2Proof.Machine.execClc s
  | .sed => Sys2Proof.Machine.execSed s
  | .cld => Sys2Proof.Machine.execCld s
  | .sei => Sys2Proof.Machine.execSei s
  | .cli => Sys2Proof.Machine.execCli s
  | .clv => Sys2Proof.Machine.execClv s
  | .nop => Sys2Proof.Machine.execNop s
  | .unimplemented opcode => Sys2Proof.Machine.execUnimplemented opcode s

end Sys2Proof.Machine
end

