-- ==== Sys2Proof/Machine/Fetch.lean ====
section
/-! DEFINITION. Fetching: `decode(address)` over the memory (30_encoding.md R110, R111) and the placement of three
bytes at PC. -/

namespace Sys2Proof.Machine

/-- The instruction whose bytes stand at an address: opcode byte, then as many operand bytes as the format has, low
byte first, addresses modulo 65 536 (30_encoding.md R110; 20_memory.md R65). -/
def instrAt (m : Memory) (address : Word) : Instr :=
  decodeBytes (m.read address) (m.read (address + 1#16)) (m.read (address + 2#16))

/-- A byte length a descriptor may have (10_state.md R29). -/
def validLength (length : Nat) : Bool := length == 1 || length == 2 || length == 3

/-- `decode(address)` (30_encoding.md R110), with the length check of 60_exceptions.md R342, which the fixed table
never fails. -/
def decodeAt (m : Memory) (address : Word) : Except Fault Instr :=
  let i := instrAt m address
  if validLength i.descriptor.length then .ok i
  else .error (.invalidInstructionLength address i.descriptor.length)

/-- Three bytes stored at PC and the two addresses after it. -/
def placeInstruction (bytes : Byte × Byte × Byte) (s : State) : State :=
  ((s.store s.pc bytes.1).store (s.pc + 1#16) bytes.2.1).store (s.pc + 2#16) bytes.2.2

end Sys2Proof.Machine
end

