-- ==== Sys2Proof/Machine/Step.lean ====
section
/-! DEFINITION. One step of the machine (30_encoding.md R112) and the placement of an instruction where the next step
fetches it. -/

namespace Sys2Proof.Machine

/-- `step()` (30_encoding.md R112): decode the instruction at PC, then run its meaning, which checks the policy,
advances PC, resolves, runs the handler and adds the cycles. -/
def step (s : State) : Host.Outcome State Fault Refusal :=
  match decodeAt s.mem s.pc with
  | .ok i => exec i s
  | .error r => .fault r

/-- The state with an instruction's three bytes stored at PC and the two addresses after it, modulo 65 536: the
program is placed by the host (70_reset_and_hazards.md R372; log 23). -/
def State.withFetchWord (s : State) (nbits w : Nat) : State :=
  placeInstruction (tableBytes nbits w) s

end Sys2Proof.Machine
end

