-- ==== Sys2Proof/Machine/Disassembly.lean ====
section
/-! DEFINITION. The disassembly text of a decoded instruction (30_encoding.md R114, R115; D19, PRESUMED, log 19). -/

namespace Sys2Proof.Machine

/-- A mnemonic as the table spells it (30_encoding.md R96, R95). -/
def mnemonicText : Mnemonic → String
  | .adc => "ADC"
  | .sbc => "SBC"
  | .and => "AND"
  | .ora => "ORA"
  | .eor => "EOR"
  | .bit => "BIT"
  | .asl => "ASL"
  | .lsr => "LSR"
  | .rol => "ROL"
  | .ror => "ROR"
  | .bpl => "BPL"
  | .bmi => "BMI"
  | .bvc => "BVC"
  | .bvs => "BVS"
  | .bcc => "BCC"
  | .bcs => "BCS"
  | .bne => "BNE"
  | .beq => "BEQ"
  | .brk => "BRK"
  | .cmp => "CMP"
  | .cpx => "CPX"
  | .cpy => "CPY"
  | .dec => "DEC"
  | .inc => "INC"
  | .dex => "DEX"
  | .dey => "DEY"
  | .inx => "INX"
  | .iny => "INY"
  | .jmp => "JMP"
  | .jsr => "JSR"
  | .rts => "RTS"
  | .rti => "RTI"
  | .lda => "LDA"
  | .ldx => "LDX"
  | .ldy => "LDY"
  | .sta => "STA"
  | .stx => "STX"
  | .sty => "STY"
  | .pha => "PHA"
  | .php => "PHP"
  | .pla => "PLA"
  | .plp => "PLP"
  | .tax => "TAX"
  | .txa => "TXA"
  | .tay => "TAY"
  | .tya => "TYA"
  | .tsx => "TSX"
  | .txs => "TXS"
  | .sec => "SEC"
  | .clc => "CLC"
  | .sed => "SED"
  | .cld => "CLD"
  | .sei => "SEI"
  | .cli => "CLI"
  | .clv => "CLV"
  | .nop => "NOP"
  | .unimplemented => "???"

/-- A hex digit, upper case (30_encoding.md R114, R115). -/
def hexDigit (n : Nat) : Char :=
  match n % 16 with
  | 0 => '0'
  | 1 => '1'
  | 2 => '2'
  | 3 => '3'
  | 4 => '4'
  | 5 => '5'
  | 6 => '6'
  | 7 => '7'
  | 8 => '8'
  | 9 => '9'
  | 10 => 'A'
  | 11 => 'B'
  | 12 => 'C'
  | 13 => 'D'
  | 14 => 'E'
  | _ => 'F'

/-- A byte as two hex digits. -/
def hex2 (v : Byte) : String :=
  String.ofList [hexDigit (v.toNat / 16), hexDigit v.toNat]

/-- A word as four hex digits. -/
def hex4 (w : Word) : String := hex2 (hiByte w) ++ hex2 (loByte w)

/-- The operand suffix of a mode (30_encoding.md R115). A branch shows its signed displacement, not its target. -/
def operandSuffix (d : Decoded) : String :=
  match d.mode with
  | .immediate => " #$" ++ hex2 (loByte d.operand)
  | .zeropage => " $" ++ hex2 (loByte d.operand)
  | .zeropageX => " $" ++ hex2 (loByte d.operand) ++ ",X"
  | .zeropageY => " $" ++ hex2 (loByte d.operand) ++ ",Y"
  | .absolute => " $" ++ hex4 d.operand
  | .absoluteX => " $" ++ hex4 d.operand ++ ",X"
  | .absoluteY => " $" ++ hex4 d.operand ++ ",Y"
  | .indirectX => " ($" ++ hex2 (loByte d.operand) ++ ",X)"
  | .indirectY => " ($" ++ hex2 (loByte d.operand) ++ "),Y"
  | .accumulator => " A"
  | .branch =>
    if (loByte d.operand).getLsbD 7 then " -$" ++ hex2 (-(loByte d.operand)) else " $" ++ hex2 (loByte d.operand)
  | .implied => ""
  | .indirect => " ($" ++ hex4 d.operand ++ ")"
  | .none => ""

/-- The text of a decoded instruction (30_encoding.md R114). -/
def disassembly (d : Decoded) : String :=
  hex4 d.address ++ ": " ++ mnemonicText d.mnemonic ++ operandSuffix d

end Sys2Proof.Machine
end

