-- ==== Sys2Proof/Machine/HostInterface.lean ====
section
/-! DEFINITION. The operations the host may call between steps (70_reset_and_hazards.md R370 to R372, R376;
10_state.md R31, R33) and the run of a program to its end (70_reset_and_hazards.md R377). -/

namespace Sys2Proof.Machine

/-- `reset()` (70_reset_and_hazards.md R371): PC, SP, A, X and Y; P, CYC and memory keep their values. -/
def hostReset (s : State) : State :=
  { s with pc := s.params.startPc, sp := 0xFF#8, a := 0x00#8, x := 0x00#8, y := 0x00#8 }

/-- `construct(mem, START_PC)` (70_reset_and_hazards.md R370): P is P_INIT and CYC is 0, then an implicit reset. -/
def construct (mem : Memory) (params : Params) : State :=
  hostReset
    { a := 0x00#8, x := 0x00#8, y := 0x00#8, sp := 0x00#8, pc := 0x0000#16
      p := params.pInit, cyc := 0, mem := mem, params := params }

/-- `decode(address)`, the preview (30_encoding.md R110, R111): no result of it is a new state. -/
def preview (address : Word) (s : State) : Except Fault Decoded :=
  match decodeAt s.mem address with
  | .ok i => .ok (i.decodedAt address)
  | .error r => .error r

/-- The disassembly text at an address (30_encoding.md R111, R114). -/
def previewText (address : Word) (s : State) : Except Fault String :=
  match preview address s with
  | .ok d => .ok (disassembly d)
  | .error r => .error r

/-- `elapsed_cycles()` (10_state.md R31). -/
def elapsedCycles (s : State) : Nat := s.cyc

/-- What the host may do to the block, one operation at a time (70_reset_and_hazards.md R376): P is written whole or
flag by flag. CYC has no write accessor (10_state.md R33; D20, DEDUCED, log 20). -/
inductive HostAction where
  | reset
  | step
  | writeA (v : Byte)
  | writeX (v : Byte)
  | writeY (v : Byte)
  | writeSp (v : Byte)
  | writePc (v : Word)
  | writeP (v : Byte)
  | writeFlag (f : Flag) (v : Bool)
  | writeMem (addr : Word) (v : Byte)
  deriving DecidableEq, Repr

/-- The effect of a host operation (70_reset_and_hazards.md R376). -/
def hostApply (act : HostAction) (s : State) : Host.Outcome State Fault Refusal :=
  match act with
  | .reset => .next (hostReset s)
  | .step => Sys2Proof.Machine.step s
  | .writeA v => .next (s.setA v)
  | .writeX v => .next (s.setX v)
  | .writeY v => .next (s.setY v)
  | .writeSp v => .next (s.setSp v)
  | .writePc v => .next (s.setPc v)
  | .writeP v => .next (s.setP v)
  | .writeFlag f v => .next (s.setP (setFlag s.p f v))
  | .writeMem addr v => .next (s.store addr v)

/-- How a run ends (70_reset_and_hazards.md R377). -/
inductive RunEnd where
  /-- (a) the given number of steps has completed -/
  | steps (s : State)
  /-- (b) PC equals the stop address at the start of a step -/
  | stopped (s : State)
  /-- (c) a step raised a fault -/
  | fault (r : Fault)
  /-- no meaning for an instruction -/
  | refused (r : Refusal)
  deriving Repr

/-- A run of at most `n` steps to an optional stop address, checked before decode
(70_reset_and_hazards.md R377; D25, DEDUCED, log 27). -/
def run (stop : Option Word) : Nat → State → RunEnd
  | 0, s => .steps s
  | n + 1, s =>
    if stop = some s.pc then .stopped s
    else
      match step s with
      | .next t => run stop n t
      | .fault r => .fault r
      | .refused r => .refused r

end Sys2Proof.Machine
end

