-- ==== Sys2Proof/Safety.lean ====
section
/-! DEFINITION. What claims are stated in: the invariant of a state, and who may change which register, flag or byte
of memory (10_state.md R21 to R25). -/

namespace Sys2Proof.Machine

/-- The invariant every step keeps: the memory is in its canonical form. -/
abbrev State.Inv (s : State) : Prop := s.mem.wf = true

/-- The instructions that can write a flag, the whole-byte writers PLP and RTI among them (10_state.md R25). -/
def Flag.writers : Flag → List Mnemonic
  | .c => [.adc, .sbc, .cmp, .cpx, .cpy, .asl, .lsr, .rol, .ror, .sec, .clc, .plp, .rti]
  | .z => [.adc, .sbc, .and, .ora, .eor, .bit, .cmp, .cpx, .cpy, .dec, .inc, .dex, .dey, .inx, .iny, .lda, .ldx, .ldy,
      .asl, .lsr, .rol, .ror, .pla, .tax, .tay, .txa, .tya, .tsx, .plp, .rti]
  | .i => [.sei, .cli, .brk, .plp, .rti]
  | .d => [.sed, .cld, .plp, .rti]
  | .b => [.brk, .plp, .rti]
  | .u => [.plp, .rti]
  | .v => [.adc, .sbc, .bit, .clv, .plp, .rti]
  | .n => [.adc, .sbc, .and, .ora, .eor, .bit, .cmp, .cpx, .cpy, .dec, .inc, .dex, .dey, .inx, .iny, .lda, .ldx, .ldy,
      .asl, .lsr, .rol, .ror, .pla, .tax, .tay, .txa, .tya, .tsx, .plp, .rti]

/-- The instructions that can write A, the shifts in Accumulator mode only (10_state.md R21). -/
def writesA (d : Descriptor) : Bool :=
  [.adc, .sbc, .and, .ora, .eor, .lda, .pla, .txa, .tya].contains d.mnemonic
    || [.asl, .lsr, .rol, .ror].contains d.mnemonic && d.mode == .accumulator

/-- The instructions that can write X (10_state.md R22). -/
def writesX (d : Descriptor) : Bool := [.ldx, .inx, .dex, .tax, .tsx].contains d.mnemonic

/-- The instructions that can write Y (10_state.md R22). -/
def writesY (d : Descriptor) : Bool := [.ldy, .iny, .dey, .tay].contains d.mnemonic

/-- The instructions that can write SP (10_state.md R23). -/
def writesSp (d : Descriptor) : Bool :=
  [.pha, .php, .pla, .plp, .jsr, .rts, .brk, .rti, .txs].contains d.mnemonic

/-- The instructions that store at their effective address: the stores, and the read-modify-writes on memory
(20_memory.md R71; 30_encoding.md R109). -/
def storesAtOperand (d : Descriptor) : Bool :=
  [.sta, .stx, .sty, .inc, .dec].contains d.mnemonic
    || [.asl, .lsr, .rol, .ror].contains d.mnemonic && d.mode != .accumulator

/-- The instructions that push (20_memory.md R66, R68). -/
def pushes (d : Descriptor) : Bool := [.pha, .php, .jsr, .brk].contains d.mnemonic

/-- The flag and the value a conditional branch tests (43_branch_brk.md R191 to R198). -/
def branchTest : Mnemonic → Option (Flag × Bool)
  | .bpl => some (.n, false)
  | .bmi => some (.n, true)
  | .bvc => some (.v, false)
  | .bvs => some (.v, true)
  | .bcc => some (.c, false)
  | .bcs => some (.c, true)
  | .bne => some (.z, false)
  | .beq => some (.z, true)
  | _ => none

/-- The flag and the value a single-flag instruction writes (48_flags_nop.md R310 to R316). -/
def flagWrite : Mnemonic → Option (Flag × Bool)
  | .sec => some (.c, true)
  | .clc => some (.c, false)
  | .sed => some (.d, true)
  | .cld => some (.d, false)
  | .sei => some (.i, true)
  | .cli => some (.i, false)
  | .clv => some (.v, false)
  | _ => none

/-- A byte of two decimal digits (00_scope.md glossary, BCD mode). -/
def validBcd (v : Byte) : Bool := decide (v.toNat / 16 < 10) && decide (v.toNat % 16 < 10)

/-- The number a byte of two decimal digits stands for. -/
def bcdNumber (v : Byte) : Nat := v.toNat / 16 * 10 + v.toNat % 16

/-- PC after the instruction's own bytes (30_encoding.md R112). -/
def pastInstr (i : Instr) (s : State) : Word := s.pc + BitVec.ofNat 16 i.descriptor.length

/-- The state resolution and the handler start from: PC is past the instruction (30_encoding.md R107, R112). -/
def advanced (i : Instr) (s : State) : State := s.setPc (pastInstr i s)

/-- The effective address of an instruction, resolved as the step resolves it (30_encoding.md R106, R107). -/
def operandAddress (i : Instr) (s : State) : Option Word := effectiveAddress (i.decodedAt s.pc) (advanced i s)

/-- The operand byte of an instruction, where it has one (30_encoding.md R108). -/
def operandByte (i : Instr) (s : State) : Option Byte :=
  match decodedValue (i.decodedAt s.pc) (advanced i s) with
  | .byte v => some v
  | .word _ => none
  | .none => none

/-- The cycles of an instruction before any branch penalty: base and page crossing (30_encoding.md R113). -/
def cost (i : Instr) (s : State) : Nat := i.descriptor.baseCycles + pageCycles (i.decodedAt s.pc) (advanced i s)

/-- The memory agrees with another at every address but one. -/
abbrev SameExceptAt (m m' : Memory) (a : Word) : Prop := ∀ b : Word, b ≠ a → m'.read b = m.read b

/-- The memory agrees with another at every address. -/
abbrev SameBytes (m m' : Memory) : Prop := ∀ b : Word, m'.read b = m.read b

/-- N and Z of P are those of a result (00_scope.md R10, `SetNZ`). -/
abbrev SetsNZ (p' r : Byte) : Prop := getFlag p' .n = r.getLsbD 7 ∧ getFlag p' .z = (r == 0#8)

/-- The flags of P other than the named ones keep their values (10_state.md R26). -/
abbrev KeepsFlagsExcept (p p' : Byte) (fs : List Flag) : Prop := ∀ f, f ∉ fs → getFlag p' f = getFlag p f

end Sys2Proof.Machine
end

