-- ==== Sys2Proof/Certificates/Slice0/Obligations.lean ====
section
/-! DEFINITION. The statements about the model, for the provers. An instruction is named by the mnemonic of its row,
and a statement about a mnemonic holds for each of its rows, that is, for each of its addressing modes. -/

open Sys2Proof Sys2Proof.Machine

/-! ## Encoding and decoding -/

/-- Words written out from the opcode table decode to the instruction of their row (30_encoding.md R91, R96).
Every opcode byte but 0x69 and 0x00 is the spec's choice from general knowledge (log 10). -/
def Obligations.TableWordsDecode : Prop :=
  decode [0x69#8, 0x12#8] = .ok (.adcImmediate 0x12#8, []) ∧
  decode [0x00#8, 0x00#8] = .ok (.brk, [0x00#8]) ∧
  decode [0x6C#8, 0xFF#8, 0x20#8] = .ok (.jmpIndirect 0x20FF#16, []) ∧
  decode [0x1E#8, 0xFF#8, 0x12#8] = .ok (.aslAbsoluteX 0x12FF#16, []) ∧
  decode [0xB6#8, 0xFF#8] = .ok (.ldxZeropageY 0xFF#8, []) ∧
  decode [0x91#8, 0x42#8] = .ok (.staIndirectY 0x42#8, []) ∧
  decode [0xD0#8, 0xFB#8] = .ok (.bne 0xFB#8, []) ∧
  decode [0x24#8, 0x10#8] = .ok (.bitZeropage 0x10#8, []) ∧
  decode [0xC6#8, 0x10#8] = .ok (.decZeropage 0x10#8, []) ∧
  decode [0x48#8] = .ok (.pha, []) ∧
  decode [0xF8#8] = .ok (.sed, []) ∧
  decode [0x02#8] = .ok (.unimplemented 0x02#8, [])

/-- R97: the 105 unfilled slots, and no other, hold the unimplemented descriptor of R95. Which slots
these are is the spec's choice from general knowledge (log 10). -/
def Obligations.UnfilledSlotsHoldTheStub : Prop :=
  unfilledOpcodes.length = 105 ∧ unfilledOpcodes.Nodup ∧
  ∀ opcode : Byte,
    (slotDescriptor opcode).opcode = opcode ∧
    ((slotDescriptor opcode).mnemonic = .unimplemented ↔ opcode ∈ unfilledOpcodes) ∧
    (opcode ∈ unfilledOpcodes → slotDescriptor opcode = ⟨opcode, .unimplemented, .none, 1, 0, .none⟩)

/-- Decoding the bytes of a well-formed instruction gives it back, with every operand at every value and whatever
bytes follow. -/
def Obligations.DecodeEncodeRoundTrip : Prop :=
  ∀ (i : Instr) (rest : List Byte), i.wf = true → decode (encode i ++ rest) = .ok (i, rest)

/-- The instruction a byte list decodes to is well-formed, and the list is its encoding and the rest. -/
def Obligations.EncodeDecodeRoundTrip : Prop :=
  ∀ (bytes : List Byte) (i : Instr) (rest : List Byte),
    decode bytes = .ok (i, rest) → i.wf = true ∧ bytes = encode i ++ rest

/-- R90: an instruction is its opcode byte and 0, 1 or 2 operand bytes, as many as the opcode byte alone says. -/
def Obligations.LengthFromOpcodeByte : Prop :=
  ∀ b0 b1 b2 : Byte,
    (decodeBytes b0 b1 b2).descriptor = slotDescriptor b0 ∧
    1 ≤ (slotDescriptor b0).length ∧ (slotDescriptor b0).length ≤ 3 ∧
    encode (decodeBytes b0 b1 b2) = [b0, b1, b2].take (slotDescriptor b0).length

/-- A step runs the instruction its bytes decode to: `exec` holds everything the step does with it, the advance of PC
and the cycle count among it (30_encoding.md R110, R112). -/
def Obligations.StepRunsDecodedInstruction : Prop :=
  ∀ (s : State) (i : Instr) (rest : List Byte),
    decode [s.mem.read s.pc, s.mem.read (s.pc + 1#16), s.mem.read (s.pc + 2#16)] = .ok (i, rest) →
    step s = exec i s

/-- A 3-byte instruction at 0xFFFE has its operand bytes at 0xFFFF and 0x0000 (20_memory.md R65). -/
def Obligations.FetchWrapsAtTopOfMemory : Prop :=
  ∀ m : Memory, (slotDescriptor (m.read 0xFFFE#16)).length = 3 →
    encode (instrAt m 0xFFFE#16) = [m.read 0xFFFE#16, m.read 0xFFFF#16, m.read 0x0000#16]

/-! ## Memory, reset and the launch premises -/

/-- A byte stored by STA is what LDA loads from the same address in the next step, and no other byte has changed
(20_memory.md R61, R73). -/
def Obligations.StoreThenLoadReturnsByte : Prop :=
  ∀ (i j : Instr) (s t : State) (ea : Word),
    i.descriptor.mnemonic = .sta → j.descriptor.mnemonic = .lda →
    operandAddress i s = some ea → exec i s = .next t → operandAddress j t = some ea →
    (∃ u, exec j t = .next u ∧ u.a = s.a) ∧ SameExceptAt s.mem t.mem ea

/-- Two canonical memories that read the same at every address are the same data. The canonical form is the model's
(log 7). -/
def Obligations.CanonicalMemoryIsUnique : Prop :=
  ∀ m m' : Memory, m.wf = true → m'.wf = true → SameBytes m m' → m = m'

/-- Every step from a state whose memory is canonical gives a state whose memory is canonical (the model's
form, log 7). -/
def Obligations.StepKeepsMemoryCanonical : Prop :=
  ∀ s t : State, s.Inv → step s = .next t → t.Inv

/-- The state after reset meets the invariant and is the construction with nothing stored in memory; the parameters
it carries are the model's choice where the spec gives no default (log 2, 3, 7). -/
def Obligations.ResetMeetsInvariant : Prop :=
  State.reset.Inv ∧ State.reset = construct [] Config.defaultParams

/-- No step changes a launch parameter (10_state.md R34); that they stand in the state is the model's choice (log 1). -/
def Obligations.StepKeepsParams : Prop :=
  ∀ s t : State, step s = .next t → t.params = s.params

/-- The state right after construction, for every memory and every value of the parameters (70_reset_and_hazards.md
R370). That P is the open P_INIT is the spec's own decision (log 3), that CYC starts at 0 too (log 21), and that the
parameters stand in the state is the model's choice (log 1). -/
def Obligations.ConstructionValues : Prop :=
  ∀ (mem : Memory) (params : Params),
    (construct mem params).pc = params.startPc ∧ (construct mem params).sp = 0xFF#8 ∧
    (construct mem params).a = 0x00#8 ∧ (construct mem params).x = 0x00#8 ∧ (construct mem params).y = 0x00#8 ∧
    (construct mem params).p = params.pInit ∧ (construct mem params).cyc = 0 ∧
    (construct mem params).mem = mem ∧ (construct mem params).params = params

/-- The reset operation writes PC, SP, A, X and Y and nothing else (70_reset_and_hazards.md R371). That it keeps P
(log 3, 29), keeps CYC (log 21) and touches no memory (log 28) are the spec's own decisions; that the parameters stand
in the state is the model's choice (log 1). -/
def Obligations.ResetOperation : Prop :=
  ∀ s : State, ∃ t, hostApply .reset s = .next t ∧
    t.pc = s.params.startPc ∧ t.sp = 0xFF#8 ∧ t.a = 0x00#8 ∧ t.x = 0x00#8 ∧ t.y = 0x00#8 ∧
    t.p = s.p ∧ t.cyc = s.cyc ∧ t.mem = s.mem ∧ t.params = s.params

/-! ## Addressing -/

/-- R100: the zero-page modes wrap within page 0 and add no cycle. -/
def Obligations.ZeroPageModes : Prop :=
  ∀ (d : Decoded) (s : State),
    (d.mode = .zeropage → effectiveAddress d s = some (d.operand &&& 0x00FF#16) ∧ pageCycles d s = 0) ∧
    (d.mode = .zeropageX → effectiveAddress d s = some ((d.operand + zext16 s.x) &&& 0x00FF#16) ∧ pageCycles d s = 0) ∧
    (d.mode = .zeropageY → effectiveAddress d s = some ((d.operand + zext16 s.y) &&& 0x00FF#16) ∧ pageCycles d s = 0)

/-- The absolute modes: the indexed sum is taken modulo 65 536 (30_encoding.md R101). -/
def Obligations.AbsoluteModes : Prop :=
  ∀ (d : Decoded) (s : State),
    (d.mode = .absolute → effectiveAddress d s = some d.operand ∧ pageCycles d s = 0) ∧
    (d.mode = .absoluteX →
      ∃ ea, effectiveAddress d s = some ea ∧ ea.toNat = (d.operand.toNat + s.x.toNat) % 65536) ∧
    (d.mode = .absoluteY →
      ∃ ea, effectiveAddress d s = some ea ∧ ea.toNat = (d.operand.toNat + s.y.toNat) % 65536)

/-- R103: the pointer of Indirect mode takes its high byte from the same page, and the mode adds no cycle. -/
def Obligations.IndirectPointerPageWrap : Prop :=
  ∀ (d : Decoded) (s : State), d.mode = .indirect →
    effectiveAddress d s = some
      (wordOf (s.mem.read ((d.operand &&& 0xFF00#16) ||| ((d.operand + 1#16) &&& 0x00FF#16))) (s.mem.read d.operand)) ∧
    pageCycles d s = 0

/-- R104 and R105: the zero-page pointers of IndirectX and IndirectY wrap within page 0. -/
def Obligations.ZeroPagePointers : Prop :=
  ∀ (d : Decoded) (s : State),
    (d.mode = .indirectX → pageCycles d s = 0 ∧
      effectiveAddress d s = some
        (wordOf (s.mem.read ((((d.operand + zext16 s.x) &&& 0x00FF#16) + 1#16) &&& 0x00FF#16))
          (s.mem.read ((d.operand + zext16 s.x) &&& 0x00FF#16)))) ∧
    (d.mode = .indirectY →
      effectiveAddress d s = some
        (wordOf (s.mem.read (((d.operand &&& 0x00FF#16) + 1#16) &&& 0x00FF#16))
          (s.mem.read (d.operand &&& 0x00FF#16)) + zext16 s.y))

/-- R102: the page-crossing cycle of AbsoluteX, AbsoluteY and IndirectY is added exactly when the low byte overflows
and the row takes it, which is when the effective address is in another page
than the base. That the row may take it or not is the spec's parameter PENALTY_ON_ALL_USERS (log 6). -/
def Obligations.PageCrossingCycle : Prop :=
  ∀ (d : Decoded) (s : State) (base : Word) (index : Byte),
    (d.mode = .absoluteX ∧ base = d.operand ∧ index = s.x ∨
      d.mode = .absoluteY ∧ base = d.operand ∧ index = s.y ∨
      d.mode = .indirectY ∧ base = s.mem.readWordZP (loByte d.operand) ∧ index = s.y) →
    pageCycles d s =
      (if 0xFF < (base &&& 0x00FF#16).toNat + index.toNat ∧ (s.params.penaltyOnAllUsers = true ∨ d.pageClass = .read)
        then 1 else 0) ∧
    ∃ ea, effectiveAddress d s = some ea ∧
      (0xFF < (base &&& 0x00FF#16).toNat + index.toNat ↔ hiByte ea ≠ hiByte base)

/-- R108: the decoded value of every mode. -/
def Obligations.DecodedValueOfEveryMode : Prop :=
  ∀ (d : Decoded) (s : State),
    (d.mode = .accumulator → decodedValue d s = .byte s.a) ∧
    (d.mode = .immediate ∨ d.mode = .branch → decodedValue d s = .byte (loByte d.operand)) ∧
    (d.mode ∈ [.zeropage, .zeropageX, .zeropageY, .absolute, .absoluteX, .absoluteY, .indirectX, .indirectY] →
      ∃ ea, effectiveAddress d s = some ea ∧ decodedValue d s = .byte (s.mem.read ea)) ∧
    (d.mode = .indirect → ∃ ea, effectiveAddress d s = some ea ∧ decodedValue d s = .word ea) ∧
    (d.mode = .implied ∨ d.mode = .none → decodedValue d s = .none)

/-! ## Arithmetic -/

/-- R130, binary mode: ADC in each of its eight modes. That it writes N and Z is the spec's own decision (log 16). -/
def Obligations.AdcBinaryResult : Prop :=
  ∀ (i : Instr) (s : State), i.descriptor.mnemonic = .adc → s.flag .d = false →
    ∃ v t, operandByte i s = some v ∧ exec i s = .next t ∧
      t.a.toNat = (s.a.toNat + v.toNat + (s.flag .c).toNat) % 256 ∧
      t.flag .c = decide (0xFF < s.a.toNat + v.toNat + (s.flag .c).toNat) ∧
      t.flag .v = decide (~~~(s.a ^^^ v) &&& (s.a ^^^ t.a) &&& 0x80#8 ≠ 0#8) ∧
      SetsNZ t.p t.a ∧ KeepsFlagsExcept s.p t.p [.n, .v, .z, .c] ∧
      t = { s with a := t.a, p := t.p, pc := pastInstr i s, cyc := s.cyc + cost i s }

/-- R131: ADC in decimal mode, in each of its eight modes, for every pair of bytes, non-BCD digits among them. The
exact algorithm is the spec's own decision (log 13). -/
def Obligations.AdcDecimalResult : Prop :=
  ∀ (i : Instr) (s : State), i.descriptor.mnemonic = .adc → s.flag .d = true →
    ∃ v t, operandByte i s = some v ∧ exec i s = .next t ∧
      (let lo := (s.a.extractLsb' 0 4).toNat + (v.extractLsb' 0 4).toNat + (s.flag .c).toNat
       let hc := decide (9 < lo)
       let hi := (s.a.extractLsb' 4 4).toNat + (v.extractLsb' 4 4).toNat + hc.toNat
       let dc := decide (9 < hi)
       let alu := BitVec.ofNat 8 (((hi &&& 0xF) <<< 4) ||| (lo &&& 0xF))
       getFlag t.p .n = alu.getLsbD 7 ∧ getFlag t.p .z = (alu == 0#8) ∧
       getFlag t.p .v = decide (~~~(s.a ^^^ v) &&& (s.a ^^^ alu) &&& 0x80#8 ≠ 0#8) ∧
       getFlag t.p .c = dc ∧
       t.a = BitVec.ofNat 8
        ((((hi + if dc then 6 else 0) &&& 0xF) <<< 4) ||| ((lo + if hc then 6 else 0) &&& 0xF))) ∧
      KeepsFlagsExcept s.p t.p [.n, .v, .z, .c] ∧
      t = { s with a := t.a, p := t.p, pc := pastInstr i s, cyc := s.cyc + cost i s }

/-- R132 and R133: SBC in each of its eight modes; the flags are those of the binary computation in both modes, the
value is the adjusted one in decimal mode. The decimal value and N and Z are the spec's own decisions (log 14, 16). -/
def Obligations.SbcResult : Prop :=
  ∀ (i : Instr) (s : State), i.descriptor.mnemonic = .sbc →
    ∃ v t, operandByte i s = some v ∧ exec i s = .next t ∧
      (let c := (s.flag .c).toNat
       let r := s.a.toNat + (v ^^^ 0xFF#8).toNat + c
       let r8 := BitVec.ofNat 8 r
       let lo := (s.a.extractLsb' 0 4).toNat + ((v ^^^ 0xFF#8).extractLsb' 0 4).toNat + c
       let lb := decide (lo ≤ 0xF)
       let hi := (s.a.extractLsb' 4 4).toNat + ((v ^^^ 0xFF#8).extractLsb' 4 4).toNat + if lb then 0 else 1
       let hb := decide (hi ≤ 0xF)
       getFlag t.p .c = decide (0xFF < r) ∧
       getFlag t.p .v = decide ((s.a ^^^ v) &&& (s.a ^^^ r8) &&& 0x80#8 ≠ 0#8) ∧ SetsNZ t.p r8 ∧
       t.a = if s.flag .d then
          BitVec.ofNat 8 (((((r8.extractLsb' 4 4).toNat + if hb then 10 else 0) &&& 0xF) <<< 4) |||
            (((r8.extractLsb' 0 4).toNat + if lb then 10 else 0) &&& 0xF))
        else r8) ∧
      KeepsFlagsExcept s.p t.p [.n, .v, .z, .c] ∧
      t = { s with a := t.a, p := t.p, pc := pastInstr i s, cyc := s.cyc + cost i s }

/-- V reports two's-complement overflow of the signed reading of the operands, after ADC in binary mode and after SBC
in either mode; C after SBC says that no borrow was needed (40_arith.md R134). That V and C of SBC come from the
binary computation in decimal mode too is the spec's own decision (log 14). -/
def Obligations.OverflowIsSignedOverflow : Prop :=
  ∀ (i : Instr) (s t : State) (v : Byte), operandByte i s = some v → exec i s = .next t →
    (i.descriptor.mnemonic = .adc → s.flag .d = false →
      t.flag .v = decide (s.a.toInt + v.toInt + (s.flag .c).toNat < -128 ∨ 127 < s.a.toInt + v.toInt + (s.flag .c).toNat)) ∧
    (i.descriptor.mnemonic = .sbc →
      t.flag .v = decide (s.a.toInt - v.toInt - (!s.flag .c).toNat < -128 ∨ 127 < s.a.toInt - v.toInt - (!s.flag .c).toNat) ∧
      t.flag .c = decide (v.toNat + (!s.flag .c).toNat ≤ s.a.toNat))

/-- ADC in decimal mode adds decimal numbers modulo 100 and C is the decimal carry (95_test_vectors.md section 2.1;
the algorithm is the spec's own decision, log 13). -/
def Obligations.DecimalAddIsDecimal : Prop :=
  ∀ (i : Instr) (s : State) (v : Byte), i.descriptor.mnemonic = .adc → s.flag .d = true →
    operandByte i s = some v → validBcd s.a = true → validBcd v = true →
    ∃ t, exec i s = .next t ∧ validBcd t.a = true ∧
      bcdNumber t.a = (bcdNumber s.a + bcdNumber v + (s.flag .c).toNat) % 100 ∧
      t.flag .c = decide (100 ≤ bcdNumber s.a + bcdNumber v + (s.flag .c).toNat)

/-- SBC in decimal mode subtracts decimal numbers modulo 100 and C says that no borrow was needed
(40_arith.md R133; 95_test_vectors.md section 2.1; the algorithm is the spec's own decision, log 14). -/
def Obligations.DecimalSubtractIsDecimal : Prop :=
  ∀ (i : Instr) (s : State) (v : Byte), i.descriptor.mnemonic = .sbc → s.flag .d = true →
    operandByte i s = some v → validBcd s.a = true → validBcd v = true →
    ∃ t, exec i s = .next t ∧ validBcd t.a = true ∧
      bcdNumber t.a = (bcdNumber s.a + 100 - bcdNumber v - (!s.flag .c).toNat) % 100 ∧
      t.flag .c = decide (bcdNumber v + (!s.flag .c).toNat ≤ bcdNumber s.a)

/-! ## Logic, shifts, compares, increments -/

/-- R150, R151 and R152: AND, ORA and EOR in each of their eight modes. -/
def Obligations.LogicResults : Prop :=
  ∀ (i : Instr) (s : State) (op : Byte → Byte → Byte),
    (i.descriptor.mnemonic = .and ∧ op = (fun a v => a &&& v) ∨
      i.descriptor.mnemonic = .ora ∧ op = (fun a v => a ||| v) ∨
      i.descriptor.mnemonic = .eor ∧ op = (fun a v => a ^^^ v)) →
    ∃ v t, operandByte i s = some v ∧ exec i s = .next t ∧ t.a = op s.a v ∧
      SetsNZ t.p (op s.a v) ∧ KeepsFlagsExcept s.p t.p [.n, .z] ∧
      t = { s with a := t.a, p := t.p, pc := pastInstr i s, cyc := s.cyc + cost i s }

/-- R153: BIT in its two modes. -/
def Obligations.BitTestResult : Prop :=
  ∀ (i : Instr) (s : State), i.descriptor.mnemonic = .bit →
    ∃ ea t, operandAddress i s = some ea ∧ exec i s = .next t ∧
      t.flag .z = (s.a &&& s.mem.read ea == 0#8) ∧ t.flag .n = (s.mem.read ea).getLsbD 7 ∧
      t.flag .v = (s.mem.read ea).getLsbD 6 ∧ KeepsFlagsExcept s.p t.p [.n, .v, .z] ∧
      t = { s with p := t.p, pc := pastInstr i s, cyc := s.cyc + cost i s }

/-- R171 to R174: the four shifts on the accumulator and on memory; the memory forms change the byte at the effective
address and no other, the accumulator forms change no byte. -/
def Obligations.ShiftResults : Prop :=
  ∀ (i : Instr) (s : State) (r : Byte → Byte) (out : Byte → Bool),
    (i.descriptor.mnemonic = .asl ∧ r = (fun v : Byte => v <<< 1) ∧ out = (fun v : Byte => v.getLsbD 7) ∨
      i.descriptor.mnemonic = .lsr ∧ r = (fun v : Byte => v >>> 1) ∧ out = (fun v : Byte => v.getLsbD 0) ∨
      i.descriptor.mnemonic = .rol ∧ r = (fun v : Byte => (v <<< 1) ||| BitVec.ofNat 8 (s.flag .c).toNat) ∧
        out = (fun v : Byte => v.getLsbD 7) ∨
      i.descriptor.mnemonic = .ror ∧ r = (fun v : Byte => (v >>> 1) ||| (BitVec.ofNat 8 (s.flag .c).toNat <<< 7)) ∧
        out = (fun v : Byte => v.getLsbD 0)) →
    ∃ v t, operandByte i s = some v ∧ exec i s = .next t ∧
      t.flag .c = out v ∧ SetsNZ t.p (r v) ∧ KeepsFlagsExcept s.p t.p [.n, .z, .c] ∧
      (i.descriptor.mode = .accumulator → v = s.a ∧
        t = { s with a := r v, p := t.p, pc := pastInstr i s, cyc := s.cyc + cost i s }) ∧
      (i.descriptor.mode ≠ .accumulator → ∃ ea, operandAddress i s = some ea ∧ v = s.mem.read ea ∧
        t.mem.read ea = r v ∧ SameExceptAt s.mem t.mem ea ∧
        t = { s with mem := t.mem, p := t.p, pc := pastInstr i s, cyc := s.cyc + cost i s })

/-- R210 to R213: CMP, CPX and CPY in each of their modes, unsigned, whatever D holds. What N is, is the spec's
own decision (log 15). -/
def Obligations.CompareResults : Prop :=
  ∀ (i : Instr) (s : State) (r : Byte),
    (i.descriptor.mnemonic = .cmp ∧ r = s.a ∨ i.descriptor.mnemonic = .cpx ∧ r = s.x ∨
      i.descriptor.mnemonic = .cpy ∧ r = s.y) →
    ∃ v t, operandByte i s = some v ∧ exec i s = .next t ∧
      t.flag .c = decide (v.toNat ≤ r.toNat) ∧ t.flag .z = decide (r = v) ∧ t.flag .n = (r - v).getLsbD 7 ∧
      KeepsFlagsExcept s.p t.p [.n, .z, .c] ∧
      t = { s with p := t.p, pc := pastInstr i s, cyc := s.cyc + cost i s }

/-- R214 and R215: DEC and INC in each of their modes change the byte at the effective address and no other. -/
def Obligations.MemoryIncDecResults : Prop :=
  ∀ (i : Instr) (s : State) (r : Byte → Byte),
    (i.descriptor.mnemonic = .dec ∧ r = (fun v => v - 1#8) ∨ i.descriptor.mnemonic = .inc ∧ r = (fun v => v + 1#8)) →
    ∃ ea t, operandAddress i s = some ea ∧ exec i s = .next t ∧
      t.mem.read ea = r (s.mem.read ea) ∧ SameExceptAt s.mem t.mem ea ∧
      SetsNZ t.p (r (s.mem.read ea)) ∧ KeepsFlagsExcept s.p t.p [.n, .z] ∧
      t = { s with mem := t.mem, p := t.p, pc := pastInstr i s, cyc := s.cyc + cost i s }

/-- R216 to R219: DEX, DEY, INX and INY. The 2 cycles are the table's, from general knowledge (log 10). -/
def Obligations.RegisterIncDecResults : Prop :=
  ∀ s : State,
    (∃ t, exec .dex s = .next t ∧ SetsNZ t.p (s.x - 1#8) ∧ KeepsFlagsExcept s.p t.p [.n, .z] ∧
      t = { s with x := s.x - 1#8, p := t.p, pc := s.pc + 1#16, cyc := s.cyc + 2 }) ∧
    (∃ t, exec .dey s = .next t ∧ SetsNZ t.p (s.y - 1#8) ∧ KeepsFlagsExcept s.p t.p [.n, .z] ∧
      t = { s with y := s.y - 1#8, p := t.p, pc := s.pc + 1#16, cyc := s.cyc + 2 }) ∧
    (∃ t, exec .inx s = .next t ∧ SetsNZ t.p (s.x + 1#8) ∧ KeepsFlagsExcept s.p t.p [.n, .z] ∧
      t = { s with x := s.x + 1#8, p := t.p, pc := s.pc + 1#16, cyc := s.cyc + 2 }) ∧
    (∃ t, exec .iny s = .next t ∧ SetsNZ t.p (s.y + 1#8) ∧ KeepsFlagsExcept s.p t.p [.n, .z] ∧
      t = { s with y := s.y + 1#8, p := t.p, pc := s.pc + 1#16, cyc := s.cyc + 2 })

/-! ## Control flow -/

/-- R190 to R198: each conditional branch, taken and not taken, with its cycles; nothing but PC and CYC changes. The
page is compared with that of the advanced PC. Which flag each tests is the spec's choice from general knowledge
(log 10). -/
def Obligations.BranchResults : Prop :=
  ∀ (i : Instr) (s : State) (f : Flag) (value : Bool), branchTest i.descriptor.mnemonic = some (f, value) →
    (s.flag f = value →
      ∃ target : Word, target = BitVec.ofInt 16 ((pastInstr i s).toNat + (loByte i.operand).toInt) ∧
        exec i s = .next { s with
          pc := target
          cyc := s.cyc + (2 + if hiByte target = hiByte (pastInstr i s) then 1 else 2) }) ∧
    (s.flag f ≠ value → exec i s = .next { s with pc := pastInstr i s, cyc := s.cyc + 2 })

/-- R199: BRK pushes the address of BRK plus 2 and P with B and U forced, sets B and I, and continues at the vector
word; the three stack bytes are the only bytes that change. The return address, the kept D and the byte
order of the vector are the spec's own decisions (log 12, 26), as are the bits of B and U (log 11), the stack page
(log 28) and the 7 cycles (log 10). -/
def Obligations.BrkTakesTheTrap : Prop :=
  ∀ s : State, ∃ t, exec .brk s = .next t ∧
    t.mem.read (0x0100#16 + zext16 s.sp) = hiByte (s.pc + 2#16) ∧
    t.mem.read (0x0100#16 + zext16 (s.sp - 1#8)) = loByte (s.pc + 2#16) ∧
    t.mem.read (0x0100#16 + zext16 (s.sp - 2#8)) = s.p ||| 0x30#8 ∧
    (∀ a : Word, a ≠ 0x0100#16 + zext16 s.sp → a ≠ 0x0100#16 + zext16 (s.sp - 1#8) →
      a ≠ 0x0100#16 + zext16 (s.sp - 2#8) → t.mem.read a = s.mem.read a) ∧
    t.flag .b = true ∧ t.flag .i = true ∧ KeepsFlagsExcept s.p t.p [.b, .i] ∧
    t = { s with
      mem := t.mem, p := t.p, sp := s.sp - 3#8, cyc := s.cyc + 7
      pc := wordOf (t.mem.read 0xFFFF#16) (t.mem.read 0xFFFE#16) }

/-- R240: JMP, absolute and indirect, the latter with the page-wrap bug. The 3 and 5 cycles are the table's, from
general knowledge (log 10). -/
def Obligations.JmpResults : Prop :=
  ∀ (w : Word) (s : State),
    exec (.jmpAbsolute w) s = .next { s with pc := w, cyc := s.cyc + 3 } ∧
    exec (.jmpIndirect w) s = .next { s with
      pc := wordOf (s.mem.read ((w &&& 0xFF00#16) ||| ((w + 1#16) &&& 0x00FF#16))) (s.mem.read w)
      cyc := s.cyc + 5 }

/-- R241: JSR pushes the address of its own last byte, high byte first, and continues at its operand. The 6 cycles are
the table's, from general knowledge (log 10), and the stack page is the spec's own decision (log 28). -/
def Obligations.JsrResult : Prop :=
  ∀ (target : Word) (s : State), ∃ t, exec (.jsr target) s = .next t ∧
    t.mem.read (0x0100#16 + zext16 s.sp) = hiByte (s.pc + 2#16) ∧
    t.mem.read (0x0100#16 + zext16 (s.sp - 1#8)) = loByte (s.pc + 2#16) ∧
    (∀ a : Word, a ≠ 0x0100#16 + zext16 s.sp → a ≠ 0x0100#16 + zext16 (s.sp - 1#8) →
      t.mem.read a = s.mem.read a) ∧
    t = { s with mem := t.mem, sp := s.sp - 2#8, pc := target, cyc := s.cyc + 6 }

/-- R242: RTS continues one past the popped word. The 6 cycles are the table's, from general knowledge (log 10), and
the stack page is the spec's own decision (log 28). -/
def Obligations.RtsResult : Prop :=
  ∀ s : State, exec .rts s = .next { s with
    pc := wordOf (s.mem.read (0x0100#16 + zext16 (s.sp + 2#8))) (s.mem.read (0x0100#16 + zext16 (s.sp + 1#8))) + 1#16
    sp := s.sp + 2#8
    cyc := s.cyc + 6 }

/-- R243: RTI restores all of P from the first byte, with bits 4 and 5 as PULL_FORCE_BU says, and PC from the next two
with no adjustment. PULL_FORCE_BU is the spec's own parameter (log 5); the bits of B and U (log 11), the stack page
(log 28) and the 6 cycles (log 10) are its own too. -/
def Obligations.RtiResult : Prop :=
  ∀ s : State, exec .rti s = .next { s with
    p := if s.params.pullForceBU = true then s.mem.read (0x0100#16 + zext16 (s.sp + 1#8)) ||| 0x30#8
      else s.mem.read (0x0100#16 + zext16 (s.sp + 1#8))
    pc := wordOf (s.mem.read (0x0100#16 + zext16 (s.sp + 3#8))) (s.mem.read (0x0100#16 + zext16 (s.sp + 2#8)))
    sp := s.sp + 3#8
    cyc := s.cyc + 6 }

/-- RTS right after JSR resumes past the JSR with SP restored, wherever SP stands (45_jump.md R242). -/
def Obligations.RtsReturnsPastJsr : Prop :=
  ∀ (target : Word) (s : State), ∃ t u, exec (.jsr target) s = .next t ∧ t.pc = target ∧
    exec .rts t = .next u ∧ u.pc = s.pc + 3#16 ∧ u.sp = s.sp ∧ u.p = s.p

/-- RTI right after BRK resumes past the byte after BRK, with SP restored and P the byte BRK pushed, under either
value of PULL_FORCE_BU (45_jump.md R243; the return address is the spec's own decision, log 12, as
are the bits of B and U, log 11). -/
def Obligations.RtiReturnsPastBrk : Prop :=
  ∀ s : State, ∃ t u, exec .brk s = .next t ∧ exec .rti t = .next u ∧
    u.pc = s.pc + 2#16 ∧ u.sp = s.sp ∧ u.p = s.p ||| 0x30#8 ∧ u.a = s.a ∧ u.x = s.x ∧ u.y = s.y

/-! ## Loads, stores, stack, transfers, flags -/

/-- R260, R261 and R262: LDA, LDX and LDY in each of their modes; no byte of memory changes. -/
def Obligations.LoadResults : Prop :=
  ∀ (i : Instr) (s : State),
    (i.descriptor.mnemonic = .lda → ∃ v t, operandByte i s = some v ∧ exec i s = .next t ∧
      SetsNZ t.p v ∧ KeepsFlagsExcept s.p t.p [.n, .z] ∧
      t = { s with a := v, p := t.p, pc := pastInstr i s, cyc := s.cyc + cost i s }) ∧
    (i.descriptor.mnemonic = .ldx → ∃ v t, operandByte i s = some v ∧ exec i s = .next t ∧
      SetsNZ t.p v ∧ KeepsFlagsExcept s.p t.p [.n, .z] ∧
      t = { s with x := v, p := t.p, pc := pastInstr i s, cyc := s.cyc + cost i s }) ∧
    (i.descriptor.mnemonic = .ldy → ∃ v t, operandByte i s = some v ∧ exec i s = .next t ∧
      SetsNZ t.p v ∧ KeepsFlagsExcept s.p t.p [.n, .z] ∧
      t = { s with y := v, p := t.p, pc := pastInstr i s, cyc := s.cyc + cost i s })

/-- R263, R264 and R265: STA, STX and STY in each of their modes store at the effective address, change no other byte
and no register or flag. -/
def Obligations.StoreResults : Prop :=
  ∀ (i : Instr) (s : State) (r : Byte),
    (i.descriptor.mnemonic = .sta ∧ r = s.a ∨ i.descriptor.mnemonic = .stx ∧ r = s.x ∨
      i.descriptor.mnemonic = .sty ∧ r = s.y) →
    ∃ ea t, operandAddress i s = some ea ∧ exec i s = .next t ∧
      t.mem.read ea = r ∧ SameExceptAt s.mem t.mem ea ∧
      t = { s with mem := t.mem, pc := pastInstr i s, cyc := s.cyc + cost i s }

/-- R280 and R281: PHA pushes A, PHP pushes P with B and U set; P itself is not changed. The 3 cycles are the table's,
from general knowledge (log 10), as are the bits of B and U (log 11); the stack page is the spec's own decision
(log 28). -/
def Obligations.PushResults : Prop :=
  ∀ (s : State) (i : Instr) (v : Byte), (i = .pha ∧ v = s.a ∨ i = .php ∧ v = s.p ||| 0x30#8) →
    ∃ t, exec i s = .next t ∧ t.mem.read (0x0100#16 + zext16 s.sp) = v ∧
      SameExceptAt s.mem t.mem (0x0100#16 + zext16 s.sp) ∧
      t = { s with mem := t.mem, sp := s.sp - 1#8, pc := s.pc + 1#16, cyc := s.cyc + 3 }

/-- R282 and R283: PLA pulls A with N and Z, PLP pulls all of P, with bits 4 and 5 as PULL_FORCE_BU says.
That PLA writes N and Z and the parameter PULL_FORCE_BU are the spec's own decisions (log 16, 5), as are the
bits of B and U (log 11), the stack page (log 28) and the 4 cycles (log 10). -/
def Obligations.PullResults : Prop :=
  ∀ s : State,
    (∃ t, exec .pla s = .next t ∧ SetsNZ t.p (s.mem.read (0x0100#16 + zext16 (s.sp + 1#8))) ∧
      KeepsFlagsExcept s.p t.p [.n, .z] ∧
      t = { s with
        a := s.mem.read (0x0100#16 + zext16 (s.sp + 1#8)), p := t.p, sp := s.sp + 1#8
        pc := s.pc + 1#16, cyc := s.cyc + 4 }) ∧
    exec .plp s = .next { s with
      p := if s.params.pullForceBU = true then s.mem.read (0x0100#16 + zext16 (s.sp + 1#8)) ||| 0x30#8
        else s.mem.read (0x0100#16 + zext16 (s.sp + 1#8))
      sp := s.sp + 1#8, pc := s.pc + 1#16, cyc := s.cyc + 4 }

/-- R284 to R289: the register transfers; TXS alone writes no flag. The 2 cycles are the table's, from general
knowledge (log 10). -/
def Obligations.TransferResults : Prop :=
  ∀ s : State,
    (∃ t, exec .tax s = .next t ∧ SetsNZ t.p s.a ∧ KeepsFlagsExcept s.p t.p [.n, .z] ∧
      t = { s with x := s.a, p := t.p, pc := s.pc + 1#16, cyc := s.cyc + 2 }) ∧
    (∃ t, exec .txa s = .next t ∧ SetsNZ t.p s.x ∧ KeepsFlagsExcept s.p t.p [.n, .z] ∧
      t = { s with a := s.x, p := t.p, pc := s.pc + 1#16, cyc := s.cyc + 2 }) ∧
    (∃ t, exec .tay s = .next t ∧ SetsNZ t.p s.a ∧ KeepsFlagsExcept s.p t.p [.n, .z] ∧
      t = { s with y := s.a, p := t.p, pc := s.pc + 1#16, cyc := s.cyc + 2 }) ∧
    (∃ t, exec .tya s = .next t ∧ SetsNZ t.p s.y ∧ KeepsFlagsExcept s.p t.p [.n, .z] ∧
      t = { s with a := s.y, p := t.p, pc := s.pc + 1#16, cyc := s.cyc + 2 }) ∧
    (∃ t, exec .tsx s = .next t ∧ SetsNZ t.p s.sp ∧ KeepsFlagsExcept s.p t.p [.n, .z] ∧
      t = { s with x := s.sp, p := t.p, pc := s.pc + 1#16, cyc := s.cyc + 2 }) ∧
    exec .txs s = .next { s with sp := s.x, pc := s.pc + 1#16, cyc := s.cyc + 2 }

/-- Push then Pop and PushWord then PopWord give back the value and SP, SP wrapping included, and no push leaves
page 1 (20_memory.md R69). -/
def Obligations.StackRoundTrip : Prop :=
  ∀ (v : Byte) (w : Word) (s : State),
    (pop (push v s)).1 = v ∧ (pop (push v s)).2.sp = s.sp ∧
    (popWord (pushWord w s)).1 = w ∧ (popWord (pushWord w s)).2.sp = s.sp ∧
    ∀ a : Word, hiByte a ≠ 0x01#8 → (pushWord w (push v s)).mem.read a = s.mem.read a

/-- 256 pushes bring SP back to its start and fill page 1, the k-th byte k below the first (20_memory.md R69).
The stack page is the spec's own decision (log 28). -/
def Obligations.FullStackWraps : Prop :=
  ∀ (bytes : List Byte) (s : State), bytes.length = 256 →
    (bytes.foldl (fun u v => push v u) s).sp = s.sp ∧
    ∀ (k : Nat) (hk : k < bytes.length),
      (bytes.foldl (fun u v => push v u) s).mem.read (0x0100#16 + zext16 (s.sp - BitVec.ofNat 8 k)) = bytes[k]

/-- R310 to R316: each single-flag instruction writes its flag and no other. The 2 cycles are the table's, from
general knowledge (log 10). -/
def Obligations.FlagInstructionResults : Prop :=
  ∀ (i : Instr) (s : State) (f : Flag) (value : Bool), flagWrite i.descriptor.mnemonic = some (f, value) →
    ∃ t, exec i s = .next t ∧ t.flag f = value ∧ KeepsFlagsExcept s.p t.p [f] ∧
      t = { s with p := t.p, pc := s.pc + 1#16, cyc := s.cyc + 2 }

/-- R317: NOP only advances PC by 1 and adds 2 to CYC. The 2 cycles are the table's, from general knowledge (log 10). -/
def Obligations.NopResult : Prop :=
  ∀ s : State, exec .nop s = .next { s with pc := s.pc + 1#16, cyc := s.cyc + 2 }

/-- R318: the stub under its two policies; keeping both is the spec's own decision (log 4). -/
def Obligations.StubFollowsPolicy : Prop :=
  ∀ (opcode : Byte) (s : State),
    (s.params.unimplPolicy = .noOp → exec (.unimplemented opcode) s = .next { s with pc := s.pc + 1#16 }) ∧
    (s.params.unimplPolicy = .fault →
      exec (.unimplemented opcode) s = .fault (.unimplementedOpcode opcode s.pc))

/-! ## Whole-machine rules -/

/-- R341, R342 and R343: a step raises a fault exactly when the policy is Fault and the opcode byte at PC is an
unfilled slot; the fault is UnimplementedOpcode with that byte and that address; no step is refused; and the preview
of any address raises nothing. The policy and the preview are the spec's own decisions (log 4, 17), and
which slots are unfilled is its choice from general knowledge (log 10). -/
def Obligations.StepFaultsExactlyOnUnfilledSlots : Prop :=
  (∀ (s : State) (r : Fault), step s = .fault r ↔
    s.params.unimplPolicy = .fault ∧ s.mem.read s.pc ∈ unfilledOpcodes ∧
      r = .unimplementedOpcode (s.mem.read s.pc) s.pc) ∧
  (∀ (s : State) (r : Refusal), step s ≠ .refused r) ∧
  (∀ (s : State) (address : Word), ∃ d, preview address s = .ok d ∧ d.address = address)

/-- An instruction changes a flag only if the flag's row of 10_state.md R25 lists it as a writer. That
ADC, SBC and PLA write N and Z is the spec's own decision (log 16). -/
def Obligations.FlagsChangeOnlyByWriters : Prop :=
  ∀ (i : Instr) (s t : State) (f : Flag), exec i s = .next t → i.descriptor.mnemonic ∉ f.writers →
    t.flag f = s.flag f

/-- An instruction changes A, X, Y or SP only if 10_state.md R21, R22 and R23 list it as a writer. -/
def Obligations.RegistersChangeOnlyByWriters : Prop :=
  ∀ (i : Instr) (s t : State), exec i s = .next t →
    (writesA i.descriptor = false → t.a = s.a) ∧ (writesX i.descriptor = false → t.x = s.x) ∧
    (writesY i.descriptor = false → t.y = s.y) ∧ (writesSp i.descriptor = false → t.sp = s.sp)

/-- A byte of memory changes only where a store or a read-modify-write has its effective address, or on page 1 by a
push (20_memory.md R69, R71). -/
def Obligations.MemoryChangesOnlyWhereStored : Prop :=
  ∀ (i : Instr) (s t : State) (a : Word), exec i s = .next t → t.mem.read a ≠ s.mem.read a →
    storesAtOperand i.descriptor = true ∧ operandAddress i s = some a ∨
      pushes i.descriptor = true ∧ hiByte a = 0x01#8

/-- A step adds its base cycles and at most two more, at most one unless it is a branch (30_encoding.md R113). -/
def Obligations.CycleAccounting : Prop :=
  ∀ (i : Instr) (s t : State), exec i s = .next t →
    ∃ extra, t.cyc = s.cyc + i.descriptor.baseCycles + extra ∧ extra ≤ 2 ∧
      (branchTest i.descriptor.mnemonic = none → extra = pageCycles (i.decodedAt s.pc) (advanced i s) ∧ extra ≤ 1)

/-- No rule reads CYC: a step from a state with another cycle count gives the same next state with the count shifted,
and the same fault (70_reset_and_hazards.md R375). -/
def Obligations.CycleCountDecidesNothing : Prop :=
  ∀ (s : State) (n : Nat),
    (∀ t, step s = .next t → ∃ k, t.cyc = s.cyc + k ∧ step (s.setCyc n) = .next (t.setCyc (n + k))) ∧
    (∀ r, step s = .fault r → step (s.setCyc n) = .fault r)

/-- The I flag masks nothing (60_exceptions.md R344; the spec's own decision, log 22): an instruction from a state that
differs in I alone gives a next state that differs in I alone, and faults in the same way. PHP and BRK, which copy P,
give one that differs in I and in bit 2 of the byte they push (10_state.md R25; the bit is log 11). It says this of one
instruction: a later pull can bring the pushed bit into any register. -/
def Obligations.InterruptFlagMasksNothing : Prop :=
  ∀ (i : Instr) (s : State) (b : Bool),
    (∀ t, i ≠ .php → i ≠ .brk → exec i s = .next t →
      ∃ u, exec i (s.setP (setFlag s.p .i b)) = .next u ∧ u = { t with p := u.p } ∧ KeepsFlagsExcept t.p u.p [.i]) ∧
    (∀ t pushed, (i = .php ∧ pushed = 0x0100#16 + zext16 s.sp ∨
        i = .brk ∧ pushed = 0x0100#16 + zext16 (s.sp - 2#8)) → exec i s = .next t →
      ∃ u, exec i (s.setP (setFlag s.p .i b)) = .next u ∧ u = { t with p := u.p, mem := u.mem } ∧
        KeepsFlagsExcept t.p u.p [.i] ∧ SameExceptAt t.mem u.mem pushed ∧
        KeepsFlagsExcept (t.mem.read pushed) (u.mem.read pushed) [.i] ∧
        getFlag (t.mem.read pushed) .i = s.flag .i ∧ getFlag (u.mem.read pushed) .i = b) ∧
    (∀ r, exec i s = .fault r → exec i (s.setP (setFlag s.p .i b)) = .fault r)

/-- No host operation but a step changes CYC or a launch parameter, and none of them faults (10_state.md R33; what the
host may write is the spec's own decision, log 20). -/
def Obligations.HostNeverWritesCycles : Prop :=
  ∀ (act : HostAction) (s : State), act ≠ .step →
    ∃ t, hostApply act s = .next t ∧ t.cyc = s.cyc ∧ t.params = s.params

/-- The seventeen disassembly texts of 95_test_vectors.md section 2.11, which show every mode (30_encoding.md R114, R115;
the Indirect and None forms are the spec's own decision, log 19, and the opcode bytes are the table's, log 10). -/
def Obligations.DisassemblyTexts : Prop :=
  disassembly ((decodeBytes 0x69#8 0x12#8 0x00#8).decodedAt 0x1000#16) = "1000: ADC #$12" ∧
  disassembly ((decodeBytes 0xA5#8 0x80#8 0x00#8).decodedAt 0x0200#16) = "0200: LDA $80" ∧
  disassembly ((decodeBytes 0xB5#8 0xFF#8 0x00#8).decodedAt 0x0200#16) = "0200: LDA $FF,X" ∧
  disassembly ((decodeBytes 0xB6#8 0xFF#8 0x00#8).decodedAt 0x0200#16) = "0200: LDX $FF,Y" ∧
  disassembly ((decodeBytes 0xAD#8 0x34#8 0x12#8).decodedAt 0x0200#16) = "0200: LDA $1234" ∧
  disassembly ((decodeBytes 0xBD#8 0xFF#8 0x12#8).decodedAt 0x0200#16) = "0200: LDA $12FF,X" ∧
  disassembly ((decodeBytes 0xB9#8 0xFF#8 0xFF#8).decodedAt 0x0200#16) = "0200: LDA $FFFF,Y" ∧
  disassembly ((decodeBytes 0xA1#8 0xFF#8 0x00#8).decodedAt 0x0200#16) = "0200: LDA ($FF,X)" ∧
  disassembly ((decodeBytes 0xB1#8 0x40#8 0x00#8).decodedAt 0x0200#16) = "0200: LDA ($40),Y" ∧
  disassembly ((decodeBytes 0x0A#8 0x00#8 0x00#8).decodedAt 0x0200#16) = "0200: ASL A" ∧
  disassembly ((decodeBytes 0xD0#8 0xFB#8 0x00#8).decodedAt 0x0608#16) = "0608: BNE -$05" ∧
  disassembly ((decodeBytes 0x10#8 0x02#8 0x00#8).decodedAt 0x1000#16) = "1000: BPL $02" ∧
  disassembly ((decodeBytes 0x70#8 0x80#8 0x00#8).decodedAt 0x1000#16) = "1000: BVS -$80" ∧
  disassembly ((decodeBytes 0xEA#8 0x00#8 0x00#8).decodedAt 0x0200#16) = "0200: NOP" ∧
  disassembly ((decodeBytes 0x6C#8 0xFF#8 0x30#8).decodedAt 0x0602#16) = "0602: JMP ($30FF)" ∧
  disassembly ((decodeBytes 0x00#8 0x00#8 0x00#8).decodedAt 0x1000#16) = "1000: BRK" ∧
  disassembly ((decodeBytes 0x02#8 0x00#8 0x00#8).decodedAt 0x1000#16) = "1000: ???"
end

