-- ==== Sys2Proof/Laws/Memory.lean ====
section
/-! SUPPORT. The laws of memory: a read after a write, and that every write keeps the canonical form. -/

namespace Sys2Proof.Machine.Memory

theorem lookup_place (m : Memory) (key : Nat) (v : Byte) (k : Nat) :
    lookup (place m key v) k = if k = key then v else lookup m k := by
  induction m with
  | nil => simp only [place, lookup, eq_comm]
  | cons cell rest ih =>
    obtain ⟨j, w⟩ := cell
    simp only [place]
    split
    · simp only [lookup, eq_comm (a := key)]
    · split
      · rename_i h; subst h
        by_cases hk : key = k <;> simp [lookup, hk, eq_comm]
      · rename_i h1 h2
        simp only [lookup, ih]
        by_cases hj : j = k
        · subst hj; simp [Ne.symm h2]
        · simp [hj]

theorem lookup_filter (m : Memory) (key k : Nat) :
    lookup (m.filter (fun cell => cell.1 != key)) k = if k = key then unlisted else lookup m k := by
  induction m with
  | nil => simp [lookup]
  | cons cell rest ih =>
    obtain ⟨j, w⟩ := cell
    by_cases hj : j = key
    · subst hj
      simp only [List.filter_cons, bne_self_eq_false, Bool.false_eq_true, if_false, ih, lookup]
      by_cases hk : k = j <;> simp [hk, eq_comm]
    · simp only [List.filter_cons, bne_iff_ne, ne_eq, hj, not_false_eq_true, if_true, lookup, ih]
      by_cases hk : j = k
      · subst hk; simp [hj]
      · simp [hk]

/-- A read gives the byte last written to its address and is not touched by a write elsewhere (20_memory.md R61). -/
theorem read_write (m : Memory) (a b : Word) (v : Byte) :
    (m.write a v).read b = if b = a then v else m.read b := by
  have hab : (b.toNat = a.toNat) = (b = a) := by simp [BitVec.toNat_inj]
  simp only [write, read]
  split
  · rename_i h; rw [lookup_filter, h]; simp only [hab]
  · rw [lookup_place]; simp only [hab]

@[simp] theorem read_write_same (m : Memory) (a : Word) (v : Byte) : (m.write a v).read a = v := by
  simp [read_write]

theorem read_write_of_ne (m : Memory) {a b : Word} (v : Byte) (h : b ≠ a) : (m.write a v).read b = m.read b := by
  simp [read_write, h]

theorem canonicalFrom_mono {b c : Nat} (hbc : b ≤ c) (m : Memory) (h : canonicalFrom c m = true) :
    canonicalFrom b m = true := by
  cases m with
  | nil => rfl
  | cons cell rest =>
    simp only [canonicalFrom, Bool.and_eq_true, decide_eq_true_eq] at h ⊢
    exact ⟨⟨⟨hbc.trans h.1.1.1, h.1.1.2⟩, h.1.2⟩, h.2⟩

theorem canonicalFrom_filter (key : Nat) (m : Memory) : ∀ bound, canonicalFrom bound m = true →
    canonicalFrom bound (m.filter (fun cell => cell.1 != key)) = true := by
  induction m with
  | nil => intro _ _; rfl
  | cons cell rest ih =>
    intro bound h
    simp only [canonicalFrom, Bool.and_eq_true, decide_eq_true_eq, bne_iff_ne, ne_eq] at h
    by_cases hj : cell.1 = key
    · simp only [List.filter_cons, hj, bne_self_eq_false, Bool.false_eq_true, if_false]
      exact canonicalFrom_mono (by omega) _ (ih _ h.2)
    · simp only [List.filter_cons, bne_iff_ne, ne_eq, hj, not_false_eq_true, if_true, canonicalFrom,
        Bool.and_eq_true, decide_eq_true_eq]
      exact ⟨h.1, ih _ h.2⟩

theorem canonicalFrom_place (key : Nat) (v : Byte) (hkey : key < 65536) (hv : v ≠ unlisted) (m : Memory) :
    ∀ bound, bound ≤ key → canonicalFrom bound m = true → canonicalFrom bound (place m key v) = true := by
  induction m with
  | nil => intro bound hb _; simp [place, canonicalFrom, hb, hkey, hv]
  | cons cell rest ih =>
    obtain ⟨j, w⟩ := cell
    intro bound hb h
    simp only [canonicalFrom, Bool.and_eq_true, decide_eq_true_eq, bne_iff_ne, ne_eq] at h
    simp only [place]
    split
    · rename_i hlt
      simp only [canonicalFrom, Bool.and_eq_true, decide_eq_true_eq, bne_iff_ne, ne_eq]
      exact ⟨⟨⟨hb, hkey⟩, hv⟩, ⟨⟨by omega, h.1.1.2⟩, h.1.2⟩, h.2⟩
    · split
      · rename_i heq; subst heq
        simp only [canonicalFrom, Bool.and_eq_true, decide_eq_true_eq, bne_iff_ne, ne_eq]
        exact ⟨⟨⟨hb, hkey⟩, hv⟩, h.2⟩
      · simp only [canonicalFrom, Bool.and_eq_true, decide_eq_true_eq, bne_iff_ne, ne_eq]
        exact ⟨h.1, ih _ (by omega) h.2⟩

/-- A write keeps the canonical form. -/
theorem write_wf (m : Memory) (a : Word) (v : Byte) (h : m.wf = true) : (m.write a v).wf = true := by
  simp only [write, wf]
  split
  · exact canonicalFrom_filter _ _ _ h
  · exact canonicalFrom_place _ _ a.isLt ‹_› _ _ (Nat.zero_le _) h

end Sys2Proof.Machine.Memory
end

