-- ==== Sys2Proof/Laws/State.lean ====
section
/-! SUPPORT. One lemma per field per update of State, true by rfl, so that no later proof unfolds a record update. -/

namespace Sys2Proof.Machine.State

section
variable (s : State) (v : Byte)
@[simp] theorem setA_a : (s.setA v).a = v := rfl
@[simp] theorem setA_x : (s.setA v).x = s.x := rfl
@[simp] theorem setA_y : (s.setA v).y = s.y := rfl
@[simp] theorem setA_sp : (s.setA v).sp = s.sp := rfl
@[simp] theorem setA_pc : (s.setA v).pc = s.pc := rfl
@[simp] theorem setA_p : (s.setA v).p = s.p := rfl
@[simp] theorem setA_cyc : (s.setA v).cyc = s.cyc := rfl
@[simp] theorem setA_mem : (s.setA v).mem = s.mem := rfl
@[simp] theorem setA_params : (s.setA v).params = s.params := rfl
@[simp] theorem setA_flag (f : Flag) : (s.setA v).flag f = s.flag f := rfl
end

section
variable (s : State) (v : Byte)
@[simp] theorem setX_a : (s.setX v).a = s.a := rfl
@[simp] theorem setX_x : (s.setX v).x = v := rfl
@[simp] theorem setX_y : (s.setX v).y = s.y := rfl
@[simp] theorem setX_sp : (s.setX v).sp = s.sp := rfl
@[simp] theorem setX_pc : (s.setX v).pc = s.pc := rfl
@[simp] theorem setX_p : (s.setX v).p = s.p := rfl
@[simp] theorem setX_cyc : (s.setX v).cyc = s.cyc := rfl
@[simp] theorem setX_mem : (s.setX v).mem = s.mem := rfl
@[simp] theorem setX_params : (s.setX v).params = s.params := rfl
@[simp] theorem setX_flag (f : Flag) : (s.setX v).flag f = s.flag f := rfl
end

section
variable (s : State) (v : Byte)
@[simp] theorem setY_a : (s.setY v).a = s.a := rfl
@[simp] theorem setY_x : (s.setY v).x = s.x := rfl
@[simp] theorem setY_y : (s.setY v).y = v := rfl
@[simp] theorem setY_sp : (s.setY v).sp = s.sp := rfl
@[simp] theorem setY_pc : (s.setY v).pc = s.pc := rfl
@[simp] theorem setY_p : (s.setY v).p = s.p := rfl
@[simp] theorem setY_cyc : (s.setY v).cyc = s.cyc := rfl
@[simp] theorem setY_mem : (s.setY v).mem = s.mem := rfl
@[simp] theorem setY_params : (s.setY v).params = s.params := rfl
@[simp] theorem setY_flag (f : Flag) : (s.setY v).flag f = s.flag f := rfl
end

section
variable (s : State) (v : Byte)
@[simp] theorem setSp_a : (s.setSp v).a = s.a := rfl
@[simp] theorem setSp_x : (s.setSp v).x = s.x := rfl
@[simp] theorem setSp_y : (s.setSp v).y = s.y := rfl
@[simp] theorem setSp_sp : (s.setSp v).sp = v := rfl
@[simp] theorem setSp_pc : (s.setSp v).pc = s.pc := rfl
@[simp] theorem setSp_p : (s.setSp v).p = s.p := rfl
@[simp] theorem setSp_cyc : (s.setSp v).cyc = s.cyc := rfl
@[simp] theorem setSp_mem : (s.setSp v).mem = s.mem := rfl
@[simp] theorem setSp_params : (s.setSp v).params = s.params := rfl
@[simp] theorem setSp_flag (f : Flag) : (s.setSp v).flag f = s.flag f := rfl
end

section
variable (s : State) (w : Word)
@[simp] theorem setPc_a : (s.setPc w).a = s.a := rfl
@[simp] theorem setPc_x : (s.setPc w).x = s.x := rfl
@[simp] theorem setPc_y : (s.setPc w).y = s.y := rfl
@[simp] theorem setPc_sp : (s.setPc w).sp = s.sp := rfl
@[simp] theorem setPc_pc : (s.setPc w).pc = w := rfl
@[simp] theorem setPc_p : (s.setPc w).p = s.p := rfl
@[simp] theorem setPc_cyc : (s.setPc w).cyc = s.cyc := rfl
@[simp] theorem setPc_mem : (s.setPc w).mem = s.mem := rfl
@[simp] theorem setPc_params : (s.setPc w).params = s.params := rfl
@[simp] theorem setPc_flag (f : Flag) : (s.setPc w).flag f = s.flag f := rfl
end

section
variable (s : State) (v : Byte)
@[simp] theorem setP_a : (s.setP v).a = s.a := rfl
@[simp] theorem setP_x : (s.setP v).x = s.x := rfl
@[simp] theorem setP_y : (s.setP v).y = s.y := rfl
@[simp] theorem setP_sp : (s.setP v).sp = s.sp := rfl
@[simp] theorem setP_pc : (s.setP v).pc = s.pc := rfl
@[simp] theorem setP_p : (s.setP v).p = v := rfl
@[simp] theorem setP_cyc : (s.setP v).cyc = s.cyc := rfl
@[simp] theorem setP_mem : (s.setP v).mem = s.mem := rfl
@[simp] theorem setP_params : (s.setP v).params = s.params := rfl
@[simp] theorem setP_flag (f : Flag) : (s.setP v).flag f = getFlag v f := rfl
end

section
variable (s : State) (n : Nat)
@[simp] theorem setCyc_a : (s.setCyc n).a = s.a := rfl
@[simp] theorem setCyc_x : (s.setCyc n).x = s.x := rfl
@[simp] theorem setCyc_y : (s.setCyc n).y = s.y := rfl
@[simp] theorem setCyc_sp : (s.setCyc n).sp = s.sp := rfl
@[simp] theorem setCyc_pc : (s.setCyc n).pc = s.pc := rfl
@[simp] theorem setCyc_p : (s.setCyc n).p = s.p := rfl
@[simp] theorem setCyc_cyc : (s.setCyc n).cyc = n := rfl
@[simp] theorem setCyc_mem : (s.setCyc n).mem = s.mem := rfl
@[simp] theorem setCyc_params : (s.setCyc n).params = s.params := rfl
@[simp] theorem setCyc_flag (f : Flag) : (s.setCyc n).flag f = s.flag f := rfl
end

section
variable (s : State) (m : Memory)
@[simp] theorem setMem_a : (s.setMem m).a = s.a := rfl
@[simp] theorem setMem_x : (s.setMem m).x = s.x := rfl
@[simp] theorem setMem_y : (s.setMem m).y = s.y := rfl
@[simp] theorem setMem_sp : (s.setMem m).sp = s.sp := rfl
@[simp] theorem setMem_pc : (s.setMem m).pc = s.pc := rfl
@[simp] theorem setMem_p : (s.setMem m).p = s.p := rfl
@[simp] theorem setMem_cyc : (s.setMem m).cyc = s.cyc := rfl
@[simp] theorem setMem_mem : (s.setMem m).mem = m := rfl
@[simp] theorem setMem_params : (s.setMem m).params = s.params := rfl
@[simp] theorem setMem_flag (f : Flag) : (s.setMem m).flag f = s.flag f := rfl
end

section
variable (s : State) (addr : Word) (v : Byte)
@[simp] theorem store_mem : (s.store addr v).mem = s.mem.write addr v := rfl
@[simp] theorem store_a : (s.store addr v).a = s.a := rfl
@[simp] theorem store_x : (s.store addr v).x = s.x := rfl
@[simp] theorem store_y : (s.store addr v).y = s.y := rfl
@[simp] theorem store_sp : (s.store addr v).sp = s.sp := rfl
@[simp] theorem store_pc : (s.store addr v).pc = s.pc := rfl
@[simp] theorem store_p : (s.store addr v).p = s.p := rfl
@[simp] theorem store_cyc : (s.store addr v).cyc = s.cyc := rfl
@[simp] theorem store_params : (s.store addr v).params = s.params := rfl
@[simp] theorem store_flag (f : Flag) : (s.store addr v).flag f = s.flag f := rfl
end

/-- Two states with the same fields are the same state. -/
theorem ext_fields {s t : State} (ha : s.a = t.a) (hx : s.x = t.x) (hy : s.y = t.y) (hsp : s.sp = t.sp)
    (hpc : s.pc = t.pc) (hp : s.p = t.p) (hcyc : s.cyc = t.cyc) (hmem : s.mem = t.mem)
    (hparams : s.params = t.params) : s = t := by
  cases s; cases t; simp_all

end Sys2Proof.Machine.State
end

