-- ==== Sys2Proof/Laws/Execute.lean ====
section
/-! SUPPORT. Everything the common part of a step and the handler shapes can do, once per operation
(30_encoding.md R112), and that they keep the canonical form of memory. -/

namespace Sys2Proof.Machine

/-- The common part of a step answers a next state exactly when its handler has one, and then it only adds cycles to
it (30_encoding.md R112, R113). -/
theorem execute_next_iff (i : Instr) (h : Handler) (s t : State) :
    execute i h s = .next t ↔
      ∃ s2 extra, h (i.decodedAt s.pc) (s.setPc (s.pc + BitVec.ofNat 16 i.descriptor.length)) = some (s2, extra) ∧
        t = s2.setCyc (s2.cyc + (i.descriptor.baseCycles +
          (pageCycles (i.decodedAt s.pc) (s.setPc (s.pc + BitVec.ofNat 16 i.descriptor.length)) + extra))) := by
  simp only [execute]
  constructor
  · intro heq
    split at heq
    · rename_i s2 extra hh
      exact ⟨s2, extra, hh, (Host.Outcome.next.inj heq).symm⟩
    · cases heq
  · rintro ⟨s2, extra, hh, rfl⟩
    have hh' : h (i.decodedAt s.pc) (s.setPc (s.pc + BitVec.ofNat 16 (i.decodedAt s.pc).length)) = some (s2, extra) := hh
    rw [hh']; rfl

/-- Resolution adds at most one cycle (30_encoding.md R102, R113). -/
theorem pageCycles_le_one (d : Decoded) (s : State) : pageCycles d s ≤ 1 := by
  simp only [pageCycles]
  split <;> (try split) <;> omega

/-- A handler that keeps the canonical form of memory. -/
def Handler.KeepsWf (h : Handler) : Prop :=
  ∀ d s s2 extra, s.mem.wf = true → h d s = some (s2, extra) → s2.mem.wf = true

theorem implied_keepsWf {f : State → State} (hf : ∀ s, s.mem.wf = true → (f s).mem.wf = true) :
    (implied f).KeepsWf := by
  intro d s s2 extra hs h
  simp only [implied, Option.some.injEq, Prod.mk.injEq] at h
  exact h.1 ▸ hf s hs

theorem reading_some {f : Byte → State → State} {d : Decoded} {s s2 : State} {extra : Nat}
    (h : reading f d s = some (s2, extra)) : ∃ v, decodedValue d s = .byte v ∧ s2 = f v s ∧ extra = 0 := by
  simp only [reading] at h
  split at h
  · rename_i v hv
    simp only [Option.some.injEq, Prod.mk.injEq] at h
    exact ⟨v, hv, h.1.symm, h.2.symm⟩
  · cases h
  · cases h

theorem storing_some {f : State → Byte} {d : Decoded} {s s2 : State} {extra : Nat}
    (h : storing f d s = some (s2, extra)) :
    ∃ ea, effectiveAddress d s = some ea ∧ s2 = s.store ea (f s) ∧ extra = 0 := by
  simp only [storing] at h
  split at h
  · rename_i ea hea
    simp only [Option.some.injEq, Prod.mk.injEq] at h
    exact ⟨ea, hea, h.1.symm, h.2.symm⟩
  · cases h

theorem jumping_some {f : State → State} {d : Decoded} {s s2 : State} {extra : Nat}
    (h : jumping f d s = some (s2, extra)) :
    ∃ ea, effectiveAddress d s = some ea ∧ s2 = (f s).setPc ea ∧ extra = 0 := by
  simp only [jumping] at h
  split at h
  · rename_i ea hea
    simp only [Option.some.injEq, Prod.mk.injEq] at h
    exact ⟨ea, hea, h.1.symm, h.2.symm⟩
  · cases h

/-- A write-back goes to A in Accumulator mode and else to the effective address (30_encoding.md R109). -/
theorem storeResult_some {d : Decoded} {ea : Option Word} {r : Byte} {s s1 : State}
    (h : storeResult d ea r s = some s1) :
    (d.mode = .accumulator ∧ s1 = s.setA r) ∨ ∃ a, ea = some a ∧ d.mode ≠ .accumulator ∧ s1 = s.store a r := by
  simp only [storeResult] at h
  split at h
  · rename_i hm; exact .inl ⟨hm, (Option.some.inj h).symm⟩
  · rename_i a hm; exact .inr ⟨a, rfl, hm, (Option.some.inj h).symm⟩
  · cases h

theorem modifying_some {f : Byte → Byte → Byte × Byte} {d : Decoded} {s s2 : State} {extra : Nat}
    (h : modifying f d s = some (s2, extra)) :
    ∃ v s1, decodedValue d s = .byte v ∧ storeResult d (effectiveAddress d s) (f v s.p).1 s = some s1 ∧
      s2 = s1.setP (f v s.p).2 ∧ extra = 0 := by
  simp only [modifying] at h
  split at h
  · rename_i v hv
    split at h
    · rename_i s1 hs
      simp only [Option.some.injEq, Prod.mk.injEq] at h
      exact ⟨v, s1, hv, hs, h.1.symm, h.2.symm⟩
    · cases h
  · cases h
  · cases h

theorem reading_keepsWf {f : Byte → State → State} (hf : ∀ v s, s.mem.wf = true → (f v s).mem.wf = true) :
    (reading f).KeepsWf := by
  intro d s s2 extra hs h
  obtain ⟨v, -, rfl, -⟩ := reading_some h
  exact hf v s hs

theorem storing_keepsWf (f : State → Byte) : (storing f).KeepsWf := by
  intro d s s2 extra hs h
  obtain ⟨ea, -, rfl, -⟩ := storing_some h
  exact Memory.write_wf _ _ _ hs

theorem jumping_keepsWf {f : State → State} (hf : ∀ s, s.mem.wf = true → (f s).mem.wf = true) :
    (jumping f).KeepsWf := by
  intro d s s2 extra hs h
  obtain ⟨ea, -, rfl, -⟩ := jumping_some h
  exact hf s hs

theorem modifying_keepsWf (f : Byte → Byte → Byte × Byte) : (modifying f).KeepsWf := by
  intro d s s2 extra hs h
  obtain ⟨v, s1, -, hst, rfl, -⟩ := modifying_some h
  obtain ⟨-, rfl⟩ | ⟨a, -, -, rfl⟩ := storeResult_some hst
  · exact hs
  · exact Memory.write_wf _ _ _ hs

/-- The common part of a step keeps the canonical form when its handler does. -/
theorem execute_wf {i : Instr} {h : Handler} {s t : State} (hh : h.KeepsWf) (hs : s.mem.wf = true)
    (ht : execute i h s = .next t) : t.mem.wf = true := by
  obtain ⟨s2, extra, hd, rfl⟩ := (execute_next_iff i h s t).1 ht
  exact hh _ (s.setPc (s.pc + BitVec.ofNat 16 i.descriptor.length)) s2 extra hs hd

end Sys2Proof.Machine
end

