-- ==== Sys2Proof/Laws/Flags.lean ====
section
/-! SUPPORT. The laws of the FLAGS byte: a flag reads as last written, and a write of one flag leaves the others
(10_state.md R24, R26). -/

namespace Sys2Proof.Machine

/-- A flag after a write of a flag (10_state.md R26). -/
theorem getFlag_setFlag (p : Byte) (f g : Flag) (v : Bool) :
    getFlag (setFlag p f v) g = if g = f then v else getFlag p g := by
  cases f <;> cases g <;> cases v <;>
    simp [getFlag, setFlag, Flag.mask, Flag.bit]

@[simp] theorem getFlag_setFlag_same (p : Byte) (f : Flag) (v : Bool) : getFlag (setFlag p f v) f = v := by
  simp [getFlag_setFlag]

theorem getFlag_setFlag_of_ne (p : Byte) {f g : Flag} (v : Bool) (h : g ≠ f) :
    getFlag (setFlag p f v) g = getFlag p g := by
  simp [getFlag_setFlag, h]

/-- What `SetNZ` writes (00_scope.md R10). -/
theorem getFlag_setNZ (p v : Byte) (g : Flag) :
    getFlag (setNZ p v) g = if g = .z then v == 0#8 else if g = .n then v.getLsbD 7 else getFlag p g := by
  simp only [setNZ, getFlag_setFlag]

/-- What `setNZC` writes. -/
theorem getFlag_setNZC (p v : Byte) (c : Bool) (g : Flag) :
    getFlag (setNZC p v c) g =
      if g = .c then c else if g = .z then v == 0#8 else if g = .n then v.getLsbD 7 else getFlag p g := by
  simp only [setNZC, getFlag_setFlag, getFlag_setNZ]

/-- What `setNVZC` writes (40_arith.md R130, R132). -/
theorem getFlag_setNVZC (p : Byte) (r : AluResult) (g : Flag) :
    getFlag (setNVZC p r) g =
      if g = .c then r.c else if g = .z then r.z else if g = .v then r.v else if g = .n then r.n
      else getFlag p g := by
  simp only [setNVZC, getFlag_setFlag]

/-- What BIT writes (41_logic_bit.md R153). -/
theorem getFlag_bitFlags (p a v : Byte) (g : Flag) :
    getFlag (bitFlags p a v) g =
      if g = .v then v.getLsbD 6 else if g = .n then v.getLsbD 7
      else if g = .z then a &&& v == 0#8 else getFlag p g := by
  simp only [bitFlags, getFlag_setFlag]

/-- Forcing B and U sets those two bits and no other (10_state.md R27). -/
theorem getFlag_force (p : Byte) (g : Flag) :
    getFlag (p ||| breakUnused) g = if g = .b ∨ g = .u then true else getFlag p g := by
  cases g <;> simp [getFlag, breakUnused, Flag.bit]

/-- A byte is its eight flags (10_state.md R24). -/
theorem flags_ext {p q : Byte} (h : ∀ g, getFlag p g = getFlag q g) : p = q := by
  have hc := h .c; have hz := h .z; have hi := h .i; have hd := h .d
  have hb := h .b; have hu := h .u; have hv := h .v; have hn := h .n
  simp only [getFlag, Flag.bit] at hc hz hi hd hb hu hv hn
  apply BitVec.eq_of_getLsbD_eq
  intro k hk
  match k, hk with
  | 0, _ => exact hc
  | 1, _ => exact hz
  | 2, _ => exact hi
  | 3, _ => exact hd
  | 4, _ => exact hb
  | 5, _ => exact hu
  | 6, _ => exact hv
  | 7, _ => exact hn
  | n + 8, h8 => omega

end Sys2Proof.Machine
end

