-- ==== Sys2Proof/Laws/Meanings.lean ====
section
/-! SUPPORT. Every meaning said once: the handler of a documented instruction is a function of its mnemonic and mode,
and `exec` is the common part of a step around it. Proofs about an instruction cite this instead of unfolding `exec`. -/

namespace Sys2Proof.Machine

/-- The handler of a mnemonic (10_state.md R29); JMP's two modes differ (45_jump.md R240). -/
def handlerOf (m : Mnemonic) (mode : Mode) : Handler :=
  match m with
  | .adc => reading adc
  | .sbc => reading sbc
  | .and => reading andA
  | .ora => reading oraA
  | .eor => reading eorA
  | .bit => reading bitTest
  | .asl => modifying (shifting shiftAsl)
  | .lsr => modifying (shifting shiftLsr)
  | .rol => modifying (shifting shiftRol)
  | .ror => modifying (shifting shiftRor)
  | .bpl => branching .n false
  | .bmi => branching .n true
  | .bvc => branching .v false
  | .bvs => branching .v true
  | .bcc => branching .c false
  | .bcs => branching .c true
  | .bne => branching .z false
  | .beq => branching .z true
  | .brk => implied breakTrap
  | .cmp => reading (comparing State.a)
  | .cpx => reading (comparing State.x)
  | .cpy => reading (comparing State.y)
  | .dec => modifying decrement
  | .inc => modifying increment
  | .dex => implied fun s => s.setXNZ (s.x - 1#8)
  | .dey => implied fun s => s.setYNZ (s.y - 1#8)
  | .inx => implied fun s => s.setXNZ (s.x + 1#8)
  | .iny => implied fun s => s.setYNZ (s.y + 1#8)
  | .jmp => if mode = .indirect then jumpingByValue else jumping (fun s => s)
  | .jsr => jumping pushReturn
  | .rts => implied returnFromSubroutine
  | .rti => implied returnFromTrap
  | .lda => reading loadA
  | .ldx => reading loadX
  | .ldy => reading loadY
  | .sta => storing State.a
  | .stx => storing State.x
  | .sty => storing State.y
  | .pha => implied fun s => push s.a s
  | .php => implied pushFlags
  | .pla => implied pullA
  | .plp => implied pullFlags
  | .tax => implied fun s => s.setXNZ s.a
  | .txa => implied fun s => s.setANZ s.x
  | .tay => implied fun s => s.setYNZ s.a
  | .tya => implied fun s => s.setANZ s.y
  | .tsx => implied fun s => s.setXNZ s.sp
  | .txs => implied fun s => s.setSp s.x
  | .sec => implied (writing .c true)
  | .clc => implied (writing .c false)
  | .sed => implied (writing .d true)
  | .cld => implied (writing .d false)
  | .sei => implied (writing .i true)
  | .cli => implied (writing .i false)
  | .clv => implied (writing .v false)
  | .nop => implied fun s => s
  | .unimplemented => implied fun s => s

/-- A documented instruction is the common part of a step around its mnemonic's handler. -/
theorem exec_eq_execute (i : Instr) (s : State) (h : i.descriptor.mnemonic ≠ .unimplemented) :
    exec i s = execute i (handlerOf i.descriptor.mnemonic i.descriptor.mode) s := by
  cases i <;> first | rfl | exact absurd rfl h

/-- The only instruction of the stub's mnemonic is the stub. -/
theorem eq_unimplemented {i : Instr} (h : i.descriptor.mnemonic = .unimplemented) :
    ∃ opcode, i = .unimplemented opcode := by
  cases i <;> first | exact ⟨_, rfl⟩ | cases h

/-- The stub under NoOp is the common part of a step around nothing (48_flags_nop.md R318). -/
theorem exec_stub_noOp (opcode : Byte) (s : State) (h : s.params.unimplPolicy = .noOp) :
    exec (.unimplemented opcode) s = execute (.unimplemented opcode) (implied fun s => s) s := by
  simp only [exec, execUnimplemented, h]

/-- The stub under Fault raises its fault (60_exceptions.md R341). -/
theorem exec_stub_fault (opcode : Byte) (s : State) (h : s.params.unimplPolicy = .fault) :
    exec (.unimplemented opcode) s = .fault (.unimplementedOpcode opcode s.pc) := by
  simp only [exec, execUnimplemented, h]

/-- The mnemonics whose handler consumes an operand byte. -/
def readsByte (m : Mnemonic) : Bool :=
  [.adc, .sbc, .and, .ora, .eor, .bit, .asl, .lsr, .rol, .ror, .cmp, .cpx, .cpy, .dec, .inc, .lda, .ldx, .ldy].contains m

/-- Every row of a mnemonic that consumes an operand byte has a mode that gives one (30_encoding.md R108). -/
theorem operandByte_of_readsByte {i : Instr} (s : State) (h : readsByte i.descriptor.mnemonic = true) :
    ∃ v, operandByte i s = some v := by
  cases i <;> first | exact ⟨_, rfl⟩ | cases h

/-- Every row of a mnemonic that stores at its operand has a mode with an effective address (30_encoding.md R106). -/
theorem operandAddress_of_stores {i : Instr} (s : State) (h : storesAtOperand i.descriptor = true) :
    ∃ ea, operandAddress i s = some ea := by
  cases i <;> first | exact ⟨_, rfl⟩ | cases h

theorem decodedValue_of_operandByte {i : Instr} {s : State} {v : Byte} (h : operandByte i s = some v) :
    decodedValue (i.decodedAt s.pc) (advanced i s) = .byte v := by
  unfold operandByte at h
  split at h
  · rename_i w hw; rw [hw, Option.some.inj h]
  · cases h
  · cases h

/-- What a rule that consumes an operand byte does in a step. -/
theorem execute_reading {i : Instr} {s : State} {v : Byte} (f : Byte → State → State)
    (h : operandByte i s = some v) :
    execute i (reading f) s =
      .next ((f v (advanced i s)).setCyc ((f v (advanced i s)).cyc + (i.descriptor.baseCycles +
        (pageCycles (i.decodedAt s.pc) (advanced i s) + 0)))) := by
  refine (execute_next_iff _ _ _ _).2 ⟨f v (advanced i s), 0, ?_, rfl⟩
  change reading f (i.decodedAt s.pc) (advanced i s) = _
  simp only [reading, decodedValue_of_operandByte h]

/-- What a store does in a step. -/
theorem execute_storing {i : Instr} {s : State} {ea : Word} (f : State → Byte)
    (h : operandAddress i s = some ea) :
    execute i (storing f) s =
      .next (((advanced i s).store ea (f (advanced i s))).setCyc (s.cyc + (i.descriptor.baseCycles +
        (pageCycles (i.decodedAt s.pc) (advanced i s) + 0)))) := by
  refine (execute_next_iff _ _ _ _).2 ⟨(advanced i s).store ea (f (advanced i s)), 0, ?_, rfl⟩
  change storing f (i.decodedAt s.pc) (advanced i s) = _
  have h' : effectiveAddress (i.decodedAt s.pc) (advanced i s) = some ea := h
  simp only [storing, h']

/-- What a rule without operand does in a step. -/
theorem execute_implied (i : Instr) (f : State → State) (s : State) :
    execute i (implied f) s =
      .next ((f (advanced i s)).setCyc ((f (advanced i s)).cyc + (i.descriptor.baseCycles +
        (pageCycles (i.decodedAt s.pc) (advanced i s) + 0)))) := rfl

/-- A documented instruction has a next state, whatever the state. -/
theorem execute_handlerOf_next (i : Instr) (s : State) :
    ∃ t, execute i (handlerOf i.descriptor.mnemonic i.descriptor.mode) s = .next t := by
  cases i <;> exact ⟨_, rfl⟩

end Sys2Proof.Machine
end

