-- ==== Sys2Proof/Laws/PerInstr.lean ====
section
/-! SUPPORT. The per-instruction family LengthByMode: the byte length of an instruction's descriptor is the length of
its addressing mode, and its encoding has that many bytes (30_encoding.md R90, R92). -/

namespace Sys2Proof.Laws

/-- The byte length of a mode (30_encoding.md R92). -/
def modeLength : Mode → Nat
  | .none => 1
  | .implied => 1
  | .accumulator => 1
  | .immediate => 2
  | .branch => 2
  | .zeropage => 2
  | .zeropageX => 2
  | .zeropageY => 2
  | .indirectX => 2
  | .indirectY => 2
  | .absolute => 3
  | .absoluteX => 3
  | .absoluteY => 3
  | .indirect => 3

namespace LengthByMode

/-- The descriptor's length is its mode's, and the encoding has that many bytes. -/
def Statement (i : Instr) : Prop :=
  i.descriptor.length = modeLength i.descriptor.mode ∧ (encode i).length = i.descriptor.length

theorem adcIndirectX (zp : Byte) : Statement (.adcIndirectX zp) := ⟨rfl, rfl⟩
theorem adcZeropage (zp : Byte) : Statement (.adcZeropage zp) := ⟨rfl, rfl⟩
theorem adcImmediate (imm : Byte) : Statement (.adcImmediate imm) := ⟨rfl, rfl⟩
theorem adcAbsolute (addr : Word) : Statement (.adcAbsolute addr) := ⟨rfl, rfl⟩
theorem adcIndirectY (zp : Byte) : Statement (.adcIndirectY zp) := ⟨rfl, rfl⟩
theorem adcZeropageX (zp : Byte) : Statement (.adcZeropageX zp) := ⟨rfl, rfl⟩
theorem adcAbsoluteY (addr : Word) : Statement (.adcAbsoluteY addr) := ⟨rfl, rfl⟩
theorem adcAbsoluteX (addr : Word) : Statement (.adcAbsoluteX addr) := ⟨rfl, rfl⟩
theorem sbcIndirectX (zp : Byte) : Statement (.sbcIndirectX zp) := ⟨rfl, rfl⟩
theorem sbcZeropage (zp : Byte) : Statement (.sbcZeropage zp) := ⟨rfl, rfl⟩
theorem sbcImmediate (imm : Byte) : Statement (.sbcImmediate imm) := ⟨rfl, rfl⟩
theorem sbcAbsolute (addr : Word) : Statement (.sbcAbsolute addr) := ⟨rfl, rfl⟩
theorem sbcIndirectY (zp : Byte) : Statement (.sbcIndirectY zp) := ⟨rfl, rfl⟩
theorem sbcZeropageX (zp : Byte) : Statement (.sbcZeropageX zp) := ⟨rfl, rfl⟩
theorem sbcAbsoluteY (addr : Word) : Statement (.sbcAbsoluteY addr) := ⟨rfl, rfl⟩
theorem sbcAbsoluteX (addr : Word) : Statement (.sbcAbsoluteX addr) := ⟨rfl, rfl⟩
theorem andIndirectX (zp : Byte) : Statement (.andIndirectX zp) := ⟨rfl, rfl⟩
theorem andZeropage (zp : Byte) : Statement (.andZeropage zp) := ⟨rfl, rfl⟩
theorem andImmediate (imm : Byte) : Statement (.andImmediate imm) := ⟨rfl, rfl⟩
theorem andAbsolute (addr : Word) : Statement (.andAbsolute addr) := ⟨rfl, rfl⟩
theorem andIndirectY (zp : Byte) : Statement (.andIndirectY zp) := ⟨rfl, rfl⟩
theorem andZeropageX (zp : Byte) : Statement (.andZeropageX zp) := ⟨rfl, rfl⟩
theorem andAbsoluteY (addr : Word) : Statement (.andAbsoluteY addr) := ⟨rfl, rfl⟩
theorem andAbsoluteX (addr : Word) : Statement (.andAbsoluteX addr) := ⟨rfl, rfl⟩
theorem oraIndirectX (zp : Byte) : Statement (.oraIndirectX zp) := ⟨rfl, rfl⟩
theorem oraZeropage (zp : Byte) : Statement (.oraZeropage zp) := ⟨rfl, rfl⟩
theorem oraImmediate (imm : Byte) : Statement (.oraImmediate imm) := ⟨rfl, rfl⟩
theorem oraAbsolute (addr : Word) : Statement (.oraAbsolute addr) := ⟨rfl, rfl⟩
theorem oraIndirectY (zp : Byte) : Statement (.oraIndirectY zp) := ⟨rfl, rfl⟩
theorem oraZeropageX (zp : Byte) : Statement (.oraZeropageX zp) := ⟨rfl, rfl⟩
theorem oraAbsoluteY (addr : Word) : Statement (.oraAbsoluteY addr) := ⟨rfl, rfl⟩
theorem oraAbsoluteX (addr : Word) : Statement (.oraAbsoluteX addr) := ⟨rfl, rfl⟩
theorem eorIndirectX (zp : Byte) : Statement (.eorIndirectX zp) := ⟨rfl, rfl⟩
theorem eorZeropage (zp : Byte) : Statement (.eorZeropage zp) := ⟨rfl, rfl⟩
theorem eorImmediate (imm : Byte) : Statement (.eorImmediate imm) := ⟨rfl, rfl⟩
theorem eorAbsolute (addr : Word) : Statement (.eorAbsolute addr) := ⟨rfl, rfl⟩
theorem eorIndirectY (zp : Byte) : Statement (.eorIndirectY zp) := ⟨rfl, rfl⟩
theorem eorZeropageX (zp : Byte) : Statement (.eorZeropageX zp) := ⟨rfl, rfl⟩
theorem eorAbsoluteY (addr : Word) : Statement (.eorAbsoluteY addr) := ⟨rfl, rfl⟩
theorem eorAbsoluteX (addr : Word) : Statement (.eorAbsoluteX addr) := ⟨rfl, rfl⟩
theorem bitZeropage (zp : Byte) : Statement (.bitZeropage zp) := ⟨rfl, rfl⟩
theorem bitAbsolute (addr : Word) : Statement (.bitAbsolute addr) := ⟨rfl, rfl⟩
theorem aslZeropage (zp : Byte) : Statement (.aslZeropage zp) := ⟨rfl, rfl⟩
theorem aslAccumulator : Statement .aslAccumulator := ⟨rfl, rfl⟩
theorem aslAbsolute (addr : Word) : Statement (.aslAbsolute addr) := ⟨rfl, rfl⟩
theorem aslZeropageX (zp : Byte) : Statement (.aslZeropageX zp) := ⟨rfl, rfl⟩
theorem aslAbsoluteX (addr : Word) : Statement (.aslAbsoluteX addr) := ⟨rfl, rfl⟩
theorem lsrZeropage (zp : Byte) : Statement (.lsrZeropage zp) := ⟨rfl, rfl⟩
theorem lsrAccumulator : Statement .lsrAccumulator := ⟨rfl, rfl⟩
theorem lsrAbsolute (addr : Word) : Statement (.lsrAbsolute addr) := ⟨rfl, rfl⟩
theorem lsrZeropageX (zp : Byte) : Statement (.lsrZeropageX zp) := ⟨rfl, rfl⟩
theorem lsrAbsoluteX (addr : Word) : Statement (.lsrAbsoluteX addr) := ⟨rfl, rfl⟩
theorem rolZeropage (zp : Byte) : Statement (.rolZeropage zp) := ⟨rfl, rfl⟩
theorem rolAccumulator : Statement .rolAccumulator := ⟨rfl, rfl⟩
theorem rolAbsolute (addr : Word) : Statement (.rolAbsolute addr) := ⟨rfl, rfl⟩
theorem rolZeropageX (zp : Byte) : Statement (.rolZeropageX zp) := ⟨rfl, rfl⟩
theorem rolAbsoluteX (addr : Word) : Statement (.rolAbsoluteX addr) := ⟨rfl, rfl⟩
theorem rorZeropage (zp : Byte) : Statement (.rorZeropage zp) := ⟨rfl, rfl⟩
theorem rorAccumulator : Statement .rorAccumulator := ⟨rfl, rfl⟩
theorem rorAbsolute (addr : Word) : Statement (.rorAbsolute addr) := ⟨rfl, rfl⟩
theorem rorZeropageX (zp : Byte) : Statement (.rorZeropageX zp) := ⟨rfl, rfl⟩
theorem rorAbsoluteX (addr : Word) : Statement (.rorAbsoluteX addr) := ⟨rfl, rfl⟩
theorem bpl (disp : Byte) : Statement (.bpl disp) := ⟨rfl, rfl⟩
theorem bmi (disp : Byte) : Statement (.bmi disp) := ⟨rfl, rfl⟩
theorem bvc (disp : Byte) : Statement (.bvc disp) := ⟨rfl, rfl⟩
theorem bvs (disp : Byte) : Statement (.bvs disp) := ⟨rfl, rfl⟩
theorem bcc (disp : Byte) : Statement (.bcc disp) := ⟨rfl, rfl⟩
theorem bcs (disp : Byte) : Statement (.bcs disp) := ⟨rfl, rfl⟩
theorem bne (disp : Byte) : Statement (.bne disp) := ⟨rfl, rfl⟩
theorem beq (disp : Byte) : Statement (.beq disp) := ⟨rfl, rfl⟩
theorem brk : Statement .brk := ⟨rfl, rfl⟩
theorem cmpIndirectX (zp : Byte) : Statement (.cmpIndirectX zp) := ⟨rfl, rfl⟩
theorem cmpZeropage (zp : Byte) : Statement (.cmpZeropage zp) := ⟨rfl, rfl⟩
theorem cmpImmediate (imm : Byte) : Statement (.cmpImmediate imm) := ⟨rfl, rfl⟩
theorem cmpAbsolute (addr : Word) : Statement (.cmpAbsolute addr) := ⟨rfl, rfl⟩
theorem cmpIndirectY (zp : Byte) : Statement (.cmpIndirectY zp) := ⟨rfl, rfl⟩
theorem cmpZeropageX (zp : Byte) : Statement (.cmpZeropageX zp) := ⟨rfl, rfl⟩
theorem cmpAbsoluteY (addr : Word) : Statement (.cmpAbsoluteY addr) := ⟨rfl, rfl⟩
theorem cmpAbsoluteX (addr : Word) : Statement (.cmpAbsoluteX addr) := ⟨rfl, rfl⟩
theorem cpxImmediate (imm : Byte) : Statement (.cpxImmediate imm) := ⟨rfl, rfl⟩
theorem cpxZeropage (zp : Byte) : Statement (.cpxZeropage zp) := ⟨rfl, rfl⟩
theorem cpxAbsolute (addr : Word) : Statement (.cpxAbsolute addr) := ⟨rfl, rfl⟩
theorem cpyImmediate (imm : Byte) : Statement (.cpyImmediate imm) := ⟨rfl, rfl⟩
theorem cpyZeropage (zp : Byte) : Statement (.cpyZeropage zp) := ⟨rfl, rfl⟩
theorem cpyAbsolute (addr : Word) : Statement (.cpyAbsolute addr) := ⟨rfl, rfl⟩
theorem decZeropage (zp : Byte) : Statement (.decZeropage zp) := ⟨rfl, rfl⟩
theorem decAbsolute (addr : Word) : Statement (.decAbsolute addr) := ⟨rfl, rfl⟩
theorem decZeropageX (zp : Byte) : Statement (.decZeropageX zp) := ⟨rfl, rfl⟩
theorem decAbsoluteX (addr : Word) : Statement (.decAbsoluteX addr) := ⟨rfl, rfl⟩
theorem incZeropage (zp : Byte) : Statement (.incZeropage zp) := ⟨rfl, rfl⟩
theorem incAbsolute (addr : Word) : Statement (.incAbsolute addr) := ⟨rfl, rfl⟩
theorem incZeropageX (zp : Byte) : Statement (.incZeropageX zp) := ⟨rfl, rfl⟩
theorem incAbsoluteX (addr : Word) : Statement (.incAbsoluteX addr) := ⟨rfl, rfl⟩
theorem dex : Statement .dex := ⟨rfl, rfl⟩
theorem dey : Statement .dey := ⟨rfl, rfl⟩
theorem inx : Statement .inx := ⟨rfl, rfl⟩
theorem iny : Statement .iny := ⟨rfl, rfl⟩
theorem jmpAbsolute (addr : Word) : Statement (.jmpAbsolute addr) := ⟨rfl, rfl⟩
theorem jmpIndirect (ptr : Word) : Statement (.jmpIndirect ptr) := ⟨rfl, rfl⟩
theorem jsr (addr : Word) : Statement (.jsr addr) := ⟨rfl, rfl⟩
theorem rts : Statement .rts := ⟨rfl, rfl⟩
theorem rti : Statement .rti := ⟨rfl, rfl⟩
theorem ldaIndirectX (zp : Byte) : Statement (.ldaIndirectX zp) := ⟨rfl, rfl⟩
theorem ldaZeropage (zp : Byte) : Statement (.ldaZeropage zp) := ⟨rfl, rfl⟩
theorem ldaImmediate (imm : Byte) : Statement (.ldaImmediate imm) := ⟨rfl, rfl⟩
theorem ldaAbsolute (addr : Word) : Statement (.ldaAbsolute addr) := ⟨rfl, rfl⟩
theorem ldaIndirectY (zp : Byte) : Statement (.ldaIndirectY zp) := ⟨rfl, rfl⟩
theorem ldaZeropageX (zp : Byte) : Statement (.ldaZeropageX zp) := ⟨rfl, rfl⟩
theorem ldaAbsoluteY (addr : Word) : Statement (.ldaAbsoluteY addr) := ⟨rfl, rfl⟩
theorem ldaAbsoluteX (addr : Word) : Statement (.ldaAbsoluteX addr) := ⟨rfl, rfl⟩
theorem ldxImmediate (imm : Byte) : Statement (.ldxImmediate imm) := ⟨rfl, rfl⟩
theorem ldxZeropage (zp : Byte) : Statement (.ldxZeropage zp) := ⟨rfl, rfl⟩
theorem ldxAbsolute (addr : Word) : Statement (.ldxAbsolute addr) := ⟨rfl, rfl⟩
theorem ldxZeropageY (zp : Byte) : Statement (.ldxZeropageY zp) := ⟨rfl, rfl⟩
theorem ldxAbsoluteY (addr : Word) : Statement (.ldxAbsoluteY addr) := ⟨rfl, rfl⟩
theorem ldyImmediate (imm : Byte) : Statement (.ldyImmediate imm) := ⟨rfl, rfl⟩
theorem ldyZeropage (zp : Byte) : Statement (.ldyZeropage zp) := ⟨rfl, rfl⟩
theorem ldyAbsolute (addr : Word) : Statement (.ldyAbsolute addr) := ⟨rfl, rfl⟩
theorem ldyZeropageX (zp : Byte) : Statement (.ldyZeropageX zp) := ⟨rfl, rfl⟩
theorem ldyAbsoluteX (addr : Word) : Statement (.ldyAbsoluteX addr) := ⟨rfl, rfl⟩
theorem staIndirectX (zp : Byte) : Statement (.staIndirectX zp) := ⟨rfl, rfl⟩
theorem staZeropage (zp : Byte) : Statement (.staZeropage zp) := ⟨rfl, rfl⟩
theorem staAbsolute (addr : Word) : Statement (.staAbsolute addr) := ⟨rfl, rfl⟩
theorem staIndirectY (zp : Byte) : Statement (.staIndirectY zp) := ⟨rfl, rfl⟩
theorem staZeropageX (zp : Byte) : Statement (.staZeropageX zp) := ⟨rfl, rfl⟩
theorem staAbsoluteY (addr : Word) : Statement (.staAbsoluteY addr) := ⟨rfl, rfl⟩
theorem staAbsoluteX (addr : Word) : Statement (.staAbsoluteX addr) := ⟨rfl, rfl⟩
theorem stxZeropage (zp : Byte) : Statement (.stxZeropage zp) := ⟨rfl, rfl⟩
theorem stxAbsolute (addr : Word) : Statement (.stxAbsolute addr) := ⟨rfl, rfl⟩
theorem stxZeropageY (zp : Byte) : Statement (.stxZeropageY zp) := ⟨rfl, rfl⟩
theorem styZeropage (zp : Byte) : Statement (.styZeropage zp) := ⟨rfl, rfl⟩
theorem styAbsolute (addr : Word) : Statement (.styAbsolute addr) := ⟨rfl, rfl⟩
theorem styZeropageX (zp : Byte) : Statement (.styZeropageX zp) := ⟨rfl, rfl⟩
theorem pha : Statement .pha := ⟨rfl, rfl⟩
theorem php : Statement .php := ⟨rfl, rfl⟩
theorem pla : Statement .pla := ⟨rfl, rfl⟩
theorem plp : Statement .plp := ⟨rfl, rfl⟩
theorem tax : Statement .tax := ⟨rfl, rfl⟩
theorem txa : Statement .txa := ⟨rfl, rfl⟩
theorem tay : Statement .tay := ⟨rfl, rfl⟩
theorem tya : Statement .tya := ⟨rfl, rfl⟩
theorem tsx : Statement .tsx := ⟨rfl, rfl⟩
theorem txs : Statement .txs := ⟨rfl, rfl⟩
theorem sec : Statement .sec := ⟨rfl, rfl⟩
theorem clc : Statement .clc := ⟨rfl, rfl⟩
theorem sed : Statement .sed := ⟨rfl, rfl⟩
theorem cld : Statement .cld := ⟨rfl, rfl⟩
theorem sei : Statement .sei := ⟨rfl, rfl⟩
theorem cli : Statement .cli := ⟨rfl, rfl⟩
theorem clv : Statement .clv := ⟨rfl, rfl⟩
theorem nop : Statement .nop := ⟨rfl, rfl⟩
theorem unimplemented (opcode : Byte) : Statement (.unimplemented opcode) := ⟨rfl, rfl⟩

end LengthByMode

end Sys2Proof.Laws
end

