-- ==== Sys2Proof/Laws/Stack.lean ====
section
/-! SUPPORT. Everything the stack primitives, trap entry and trap return can do, once per operation
(20_memory.md R66 to R69; 43_branch_brk.md R199; 45_jump.md R243). -/

namespace Sys2Proof.Machine

theorem stackAddress_toNat (sp : Byte) : (stackAddress sp).toNat = 256 + sp.toNat := by
  have := sp.isLt
  simp only [stackAddress, Config.stackBase, zext16, BitVec.toNat_add, BitVec.toNat_setWidth, BitVec.toNat_ofNat]
  omega

/-- Two stack bytes are one only for one SP value. -/
@[simp] theorem stackAddress_inj (a b : Byte) : stackAddress a = stackAddress b ↔ a = b := by
  refine ⟨fun h => ?_, fun h => h ▸ rfl⟩
  have h' := congrArg BitVec.toNat h
  simp only [stackAddress_toNat] at h'
  exact BitVec.eq_of_toNat_eq (by omega)

/-- The stack stays on page 1 (20_memory.md R69). -/
theorem hiByte_stackAddress (sp : Byte) : hiByte (stackAddress sp) = 0x01#8 := by
  apply BitVec.eq_of_toNat_eq
  have := sp.isLt
  simp only [hiByte, BitVec.extractLsb'_toNat, stackAddress_toNat, BitVec.toNat_ofNat, Nat.shiftRight_eq_div_pow]
  omega

section Push
variable (v : Byte) (w : Word) (s : State)

@[simp] theorem push_mem : (push v s).mem = s.mem.write (stackAddress s.sp) v := rfl
@[simp] theorem push_sp : (push v s).sp = s.sp - 1#8 := rfl
@[simp] theorem push_a : (push v s).a = s.a := rfl
@[simp] theorem push_x : (push v s).x = s.x := rfl
@[simp] theorem push_y : (push v s).y = s.y := rfl
@[simp] theorem push_pc : (push v s).pc = s.pc := rfl
@[simp] theorem push_p : (push v s).p = s.p := rfl
@[simp] theorem push_cyc : (push v s).cyc = s.cyc := rfl
@[simp] theorem push_params : (push v s).params = s.params := rfl

/-- What PushWord does: two bytes, the high byte at the higher address, and SP down by two (20_memory.md R68). -/
theorem pushWord_eq : pushWord w s =
    (s.setMem ((s.mem.write (stackAddress s.sp) (hiByte w)).write (stackAddress (s.sp - 1#8)) (loByte w))).setSp
      (s.sp - 1#8 - 1#8) := rfl

theorem push_wf (h : s.mem.wf = true) : (push v s).mem.wf = true := Memory.write_wf _ _ _ h

theorem pushWord_wf (h : s.mem.wf = true) : (pushWord w s).mem.wf = true := push_wf _ _ (push_wf _ _ h)

end Push

section Pop
variable (s : State)

/-- What Pop does: SP up by one, and the byte there (20_memory.md R67). -/
theorem pop_eq : pop s = (s.mem.read (stackAddress (s.sp + 1#8)), s.setSp (s.sp + 1#8)) := rfl

/-- What PopWord does: SP up by two, the low byte from the lower address (20_memory.md R69). -/
theorem popWord_eq : popWord s =
    (wordOf (s.mem.read (stackAddress (s.sp + 1#8 + 1#8))) (s.mem.read (stackAddress (s.sp + 1#8))),
      (s.setSp (s.sp + 1#8)).setSp (s.sp + 1#8 + 1#8)) := rfl

end Pop

section Trap
variable (ret vector : Word) (s : State)

/-- The memory after trap entry: the return address and P with B and U forced (43_branch_brk.md R199). -/
theorem enterTrap_mem : (enterTrap ret vector s).mem =
    ((s.mem.write (stackAddress s.sp) (hiByte ret)).write (stackAddress (s.sp - 1#8)) (loByte ret)).write
      (stackAddress (s.sp - 1#8 - 1#8)) (setFlag s.p .b true ||| breakUnused) := rfl

theorem enterTrap_p : (enterTrap ret vector s).p = setFlag (setFlag s.p .b true) .i true := rfl

theorem enterTrap_pc : (enterTrap ret vector s).pc = (enterTrap ret vector s).mem.readWord vector := rfl

theorem enterTrap_sp : (enterTrap ret vector s).sp = s.sp - 1#8 - 1#8 - 1#8 := rfl

@[simp] theorem enterTrap_a : (enterTrap ret vector s).a = s.a := by
  simp [enterTrap, pushWord]
@[simp] theorem enterTrap_x : (enterTrap ret vector s).x = s.x := by
  simp [enterTrap, pushWord]
@[simp] theorem enterTrap_y : (enterTrap ret vector s).y = s.y := by
  simp [enterTrap, pushWord]
@[simp] theorem enterTrap_cyc : (enterTrap ret vector s).cyc = s.cyc := by
  simp [enterTrap, pushWord]
@[simp] theorem enterTrap_params : (enterTrap ret vector s).params = s.params := by
  simp [enterTrap, pushWord]

theorem enterTrap_wf (h : s.mem.wf = true) : (enterTrap ret vector s).mem.wf = true := by
  rw [enterTrap_mem]
  exact Memory.write_wf _ _ _ (Memory.write_wf _ _ _ (Memory.write_wf _ _ _ h))

/-- What trap return does (45_jump.md R243): P from the first byte, PC from the next two, SP up by three. -/
theorem returnFromTrap_eq : returnFromTrap s =
    { s with
      p := pulledFlags s.params (s.mem.read (stackAddress (s.sp + 1#8)))
      sp := s.sp + 1#8 + 1#8 + 1#8
      pc := wordOf (s.mem.read (stackAddress (s.sp + 1#8 + 1#8 + 1#8)))
        (s.mem.read (stackAddress (s.sp + 1#8 + 1#8))) } := rfl

end Trap

end Sys2Proof.Machine
end

