-- ==== Sys2Proof/Tests/Slice0.lean ====
section
/-! SUPPORT. The model's own tests: ill-formed terms that WellFormed refuses, decodings of words written out from the
table of 30_encoding.md R96, single steps of the vectors of 95_test_vectors.md (each named), and one witness for each
statement that has hypotheses. Every expected value is the spec's. -/

open Sys2Proof Sys2Proof.Machine

namespace Sys2Proof.Tests

/-! ## Well-formedness -/

theorem test_wf_refuses_filled_slot : (Instr.unimplemented 0x69#8).wf = false := by decide
theorem test_wf_refuses_brk_slot : (Instr.unimplemented 0x00#8).wf = false := by decide
theorem test_wf_accepts_last_slot : (Instr.unimplemented 0xFF#8).wf = true := by decide

/-! ## Decoding: the word of each row, byte for byte from the table, at operand 0x12 or 0x1234.
Each list names the rows of a family: the opcode byte, and the instruction its word decodes to. -/

/-- The instruction decoded from an opcode byte and the operand bytes 0x34 0x12. -/
def word (opcode : Byte) : Instr := decodeBytes opcode 0x34#8 0x12#8

theorem test_decode_arith :
    [0x61#8, 0x65#8, 0x69#8, 0x6D#8, 0x71#8, 0x75#8, 0x79#8, 0x7D#8, 0xE1#8, 0xE5#8, 0xE9#8, 0xED#8, 0xF1#8, 0xF5#8, 0xF9#8, 0xFD#8].map word =
      [.adcIndirectX 0x34#8, .adcZeropage 0x34#8, .adcImmediate 0x34#8, .adcAbsolute 0x1234#16, .adcIndirectY 0x34#8, .adcZeropageX 0x34#8, .adcAbsoluteY 0x1234#16, .adcAbsoluteX 0x1234#16, .sbcIndirectX 0x34#8, .sbcZeropage 0x34#8, .sbcImmediate 0x34#8, .sbcAbsolute 0x1234#16, .sbcIndirectY 0x34#8, .sbcZeropageX 0x34#8, .sbcAbsoluteY 0x1234#16, .sbcAbsoluteX 0x1234#16] := by
  decide

theorem test_decode_logic :
    [0x01#8, 0x05#8, 0x09#8, 0x0D#8, 0x11#8, 0x15#8, 0x19#8, 0x1D#8, 0x21#8, 0x24#8, 0x25#8, 0x29#8, 0x2C#8, 0x2D#8, 0x31#8, 0x35#8, 0x39#8, 0x3D#8, 0x41#8, 0x45#8, 0x49#8, 0x4D#8, 0x51#8, 0x55#8, 0x59#8, 0x5D#8].map word =
      [.oraIndirectX 0x34#8, .oraZeropage 0x34#8, .oraImmediate 0x34#8, .oraAbsolute 0x1234#16, .oraIndirectY 0x34#8, .oraZeropageX 0x34#8, .oraAbsoluteY 0x1234#16, .oraAbsoluteX 0x1234#16, .andIndirectX 0x34#8, .bitZeropage 0x34#8, .andZeropage 0x34#8, .andImmediate 0x34#8, .bitAbsolute 0x1234#16, .andAbsolute 0x1234#16, .andIndirectY 0x34#8, .andZeropageX 0x34#8, .andAbsoluteY 0x1234#16, .andAbsoluteX 0x1234#16, .eorIndirectX 0x34#8, .eorZeropage 0x34#8, .eorImmediate 0x34#8, .eorAbsolute 0x1234#16, .eorIndirectY 0x34#8, .eorZeropageX 0x34#8, .eorAbsoluteY 0x1234#16, .eorAbsoluteX 0x1234#16] := by
  decide

theorem test_decode_shift :
    [0x06#8, 0x0A#8, 0x0E#8, 0x16#8, 0x1E#8, 0x26#8, 0x2A#8, 0x2E#8, 0x36#8, 0x3E#8, 0x46#8, 0x4A#8, 0x4E#8, 0x56#8, 0x5E#8, 0x66#8, 0x6A#8, 0x6E#8, 0x76#8, 0x7E#8].map word =
      [.aslZeropage 0x34#8, .aslAccumulator, .aslAbsolute 0x1234#16, .aslZeropageX 0x34#8, .aslAbsoluteX 0x1234#16, .rolZeropage 0x34#8, .rolAccumulator, .rolAbsolute 0x1234#16, .rolZeropageX 0x34#8, .rolAbsoluteX 0x1234#16, .lsrZeropage 0x34#8, .lsrAccumulator, .lsrAbsolute 0x1234#16, .lsrZeropageX 0x34#8, .lsrAbsoluteX 0x1234#16, .rorZeropage 0x34#8, .rorAccumulator, .rorAbsolute 0x1234#16, .rorZeropageX 0x34#8, .rorAbsoluteX 0x1234#16] := by
  decide

theorem test_decode_branch :
    [0x00#8, 0x10#8, 0x30#8, 0x50#8, 0x70#8, 0x90#8, 0xB0#8, 0xD0#8, 0xF0#8].map word =
      [.brk, .bpl 0x34#8, .bmi 0x34#8, .bvc 0x34#8, .bvs 0x34#8, .bcc 0x34#8, .bcs 0x34#8, .bne 0x34#8, .beq 0x34#8] := by
  decide

theorem test_decode_compare_incdec :
    [0x88#8, 0xC0#8, 0xC1#8, 0xC4#8, 0xC5#8, 0xC6#8, 0xC8#8, 0xC9#8, 0xCA#8, 0xCC#8, 0xCD#8, 0xCE#8, 0xD1#8, 0xD5#8, 0xD6#8, 0xD9#8, 0xDD#8, 0xDE#8, 0xE0#8, 0xE4#8, 0xE6#8, 0xE8#8, 0xEC#8, 0xEE#8, 0xF6#8, 0xFE#8].map word =
      [.dey, .cpyImmediate 0x34#8, .cmpIndirectX 0x34#8, .cpyZeropage 0x34#8, .cmpZeropage 0x34#8, .decZeropage 0x34#8, .iny, .cmpImmediate 0x34#8, .dex, .cpyAbsolute 0x1234#16, .cmpAbsolute 0x1234#16, .decAbsolute 0x1234#16, .cmpIndirectY 0x34#8, .cmpZeropageX 0x34#8, .decZeropageX 0x34#8, .cmpAbsoluteY 0x1234#16, .cmpAbsoluteX 0x1234#16, .decAbsoluteX 0x1234#16, .cpxImmediate 0x34#8, .cpxZeropage 0x34#8, .incZeropage 0x34#8, .inx, .cpxAbsolute 0x1234#16, .incAbsolute 0x1234#16, .incZeropageX 0x34#8, .incAbsoluteX 0x1234#16] := by
  decide

theorem test_decode_jump :
    [0x20#8, 0x40#8, 0x4C#8, 0x60#8, 0x6C#8].map word =
      [.jsr 0x1234#16, .rti, .jmpAbsolute 0x1234#16, .rts, .jmpIndirect 0x1234#16] := by
  decide

theorem test_decode_load :
    [0xA0#8, 0xA1#8, 0xA2#8, 0xA4#8, 0xA5#8, 0xA6#8, 0xA9#8, 0xAC#8, 0xAD#8, 0xAE#8, 0xB1#8, 0xB4#8, 0xB5#8, 0xB6#8, 0xB9#8, 0xBC#8, 0xBD#8, 0xBE#8].map word =
      [.ldyImmediate 0x34#8, .ldaIndirectX 0x34#8, .ldxImmediate 0x34#8, .ldyZeropage 0x34#8, .ldaZeropage 0x34#8, .ldxZeropage 0x34#8, .ldaImmediate 0x34#8, .ldyAbsolute 0x1234#16, .ldaAbsolute 0x1234#16, .ldxAbsolute 0x1234#16, .ldaIndirectY 0x34#8, .ldyZeropageX 0x34#8, .ldaZeropageX 0x34#8, .ldxZeropageY 0x34#8, .ldaAbsoluteY 0x1234#16, .ldyAbsoluteX 0x1234#16, .ldaAbsoluteX 0x1234#16, .ldxAbsoluteY 0x1234#16] := by
  decide

theorem test_decode_store :
    [0x81#8, 0x84#8, 0x85#8, 0x86#8, 0x8C#8, 0x8D#8, 0x8E#8, 0x91#8, 0x94#8, 0x95#8, 0x96#8, 0x99#8, 0x9D#8].map word =
      [.staIndirectX 0x34#8, .styZeropage 0x34#8, .staZeropage 0x34#8, .stxZeropage 0x34#8, .styAbsolute 0x1234#16, .staAbsolute 0x1234#16, .stxAbsolute 0x1234#16, .staIndirectY 0x34#8, .styZeropageX 0x34#8, .staZeropageX 0x34#8, .stxZeropageY 0x34#8, .staAbsoluteY 0x1234#16, .staAbsoluteX 0x1234#16] := by
  decide

theorem test_decode_stack_transfer :
    [0x08#8, 0x28#8, 0x48#8, 0x68#8, 0x8A#8, 0x98#8, 0x9A#8, 0xA8#8, 0xAA#8, 0xBA#8].map word =
      [.php, .plp, .pha, .pla, .txa, .tya, .txs, .tay, .tax, .tsx] := by
  decide

theorem test_decode_flags_nop :
    [0x18#8, 0x38#8, 0x58#8, 0x78#8, 0xB8#8, 0xD8#8, 0xEA#8, 0xF8#8].map word =
      [.clc, .sec, .cli, .sei, .clv, .cld, .nop, .sed] := by
  decide

theorem test_decode_stub : [0x02#8, 0x80#8, 0xFF#8].map word =
    [.unimplemented 0x02#8, .unimplemented 0x80#8, .unimplemented 0xFF#8] := by decide

/-- A table word's bits count on from the first byte (two-byte and three-byte rows). -/
theorem test_decodeTableWord : decodeTableWord 24 0x20FF6C = some (.jmpIndirect 0x20FF#16) ∧
    decodeTableWord 8 0xFF6C = some (.jmpIndirect 0x0000#16) := by decide

theorem test_decode_rejects_missing_operand :
    (match decode [0xAD#8, 0x34#8] with | .error e => e == .missingOperand 0xAD#8 | .ok _ => false) = true := by decide

/-! ## Steps: the vectors of 95_test_vectors.md -/

/-- The start state of a vector: after reset with PC set and the given bytes in memory. -/
def start (pc : Word) (cells : List (Word × Byte)) : State :=
  cells.foldl (fun s c => s.store c.1 c.2) (State.reset.setPc pc)

/-- A step has a next state and it passes the check. -/
def steps (s : State) (check : State → Bool) : Bool :=
  match step s with
  | .next t => check t
  | .fault _ => false
  | .refused _ => false

/-- 95_test_vectors.md S1. -/
theorem test_step_adc_immediate : steps (start 0x1000#16 [(0x1000#16, 0x69#8), (0x1001#16, 0x12#8)])
    (fun t => t.a == 0x12#8 && t.pc == 0x1002#16 && t.cyc == 2 && t.p == 0x00#8) = true := by decide

/-- 95_test_vectors.md S3. -/
theorem test_step_adc_decimal : steps { start 0x0200#16 [(0x0200#16, 0x69#8)] with a := 0x79#8, p := 0x09#8 }
    (fun t => t.a == 0x80#8 && t.p == 0xC8#8 && t.pc == 0x0202#16 && t.cyc == 2) = true := by decide

/-- 95_test_vectors.md VA20. -/
theorem test_step_sbc_overflow : steps { start 0x0200#16 [(0x0200#16, 0xE9#8), (0x0201#16, 0x01#8)] with a := 0x80#8, p := 0x01#8 }
    (fun t => t.a == 0x7F#8 && t.p == 0x41#8) = true := by decide

/-- 95_test_vectors.md VA27. -/
theorem test_step_sbc_decimal_borrow : steps { start 0x0200#16 [(0x0200#16, 0xE9#8), (0x0201#16, 0x34#8)] with a := 0x21#8, p := 0x09#8 }
    (fun t => t.a == 0x87#8 && t.p == 0x88#8) = true := by decide

/-- 95_test_vectors.md VL6. -/
theorem test_step_and_indirectX_pointer_wraps : steps { start 0x0200#16 [(0x0200#16, 0x21#8), (0x0201#16, 0xFE#8), (0x00FF#16, 0x00#8), (0x0000#16, 0x30#8), (0x3000#16, 0x81#8)] with a := 0xFF#8, x := 0x01#8 }
    (fun t => t.a == 0x81#8 && t.p == 0x80#8 && t.cyc == 6) = true := by decide

/-- 95_test_vectors.md VL2. -/
theorem test_step_and_zero : steps { start 0x0200#16 [(0x0200#16, 0x29#8), (0x0201#16, 0xF0#8)] with a := 0x0F#8 }
    (fun t => t.a == 0x00#8 && t.p == 0x02#8) = true := by decide

/-- 95_test_vectors.md VL3. -/
theorem test_step_ora : steps { start 0x0200#16 [(0x0200#16, 0x09#8), (0x0201#16, 0x80#8)] with a := 0x01#8 }
    (fun t => t.a == 0x81#8 && t.p == 0x80#8) = true := by decide

/-- 95_test_vectors.md VL4. -/
theorem test_step_eor : steps { start 0x0200#16 [(0x0200#16, 0x49#8), (0x0201#16, 0x0F#8)] with a := 0xFF#8 }
    (fun t => t.a == 0xF0#8 && t.p == 0x80#8) = true := by decide

/-- 95_test_vectors.md VL7. -/
theorem test_step_bit_sets_from_operand : steps { start 0x0200#16 [(0x0200#16, 0x24#8), (0x0201#16, 0x10#8), (0x0010#16, 0xC0#8)] with a := 0x01#8 }
    (fun t => t.a == 0x01#8 && t.p == 0xC2#8 && t.cyc == 3) = true := by decide

/-- 95_test_vectors.md VL8. -/
theorem test_step_bit_clears : steps { start 0x0200#16 [(0x0200#16, 0x2C#8), (0x0201#16, 0x34#8), (0x0202#16, 0x12#8), (0x1234#16, 0x3F#8)] with a := 0xFF#8, p := 0xC2#8 }
    (fun t => t.p == 0x00#8 && t.cyc == 4) = true := by decide

/-- 95_test_vectors.md VH2. -/
theorem test_step_asl_accumulator : steps { start 0x0200#16 [(0x0200#16, 0x0A#8)] with a := 0x80#8 }
    (fun t => t.a == 0x00#8 && t.p == 0x03#8 && t.cyc == 2) = true := by decide

/-- 95_test_vectors.md VH9. -/
theorem test_step_asl_absoluteX_page_crossing : steps { start 0x0200#16 [(0x0200#16, 0x1E#8), (0x0201#16, 0xFF#8), (0x0202#16, 0x12#8), (0x1300#16, 0x40#8)] with x := 0x01#8 }
    (fun t => t.mem.read 0x1300#16 == 0x80#8 && t.p == 0x80#8 && t.cyc == 8) = true := by decide

/-- 95_test_vectors.md VH3. -/
theorem test_step_lsr_memory : steps { start 0x0200#16 [(0x0200#16, 0x46#8), (0x0201#16, 0x10#8), (0x0010#16, 0x03#8)] with a := 0x55#8 }
    (fun t => t.a == 0x55#8 && t.mem.read 0x0010#16 == 0x01#8 && t.p == 0x01#8 && t.cyc == 5) = true := by decide

/-- 95_test_vectors.md VH4. -/
theorem test_step_lsr_accumulator : steps { start 0x0200#16 [(0x0200#16, 0x4A#8)] with a := 0x01#8 }
    (fun t => t.a == 0x00#8 && t.p == 0x03#8) = true := by decide

/-- 95_test_vectors.md VH5. -/
theorem test_step_rol_takes_carry : steps { start 0x0200#16 [(0x0200#16, 0x2A#8)] with a := 0x40#8, p := 0x01#8 }
    (fun t => t.a == 0x81#8 && t.p == 0x80#8) = true := by decide

/-- 95_test_vectors.md VH6. -/
theorem test_step_rol_gives_carry : steps { start 0x0200#16 [(0x0200#16, 0x2A#8)] with a := 0x80#8 }
    (fun t => t.a == 0x00#8 && t.p == 0x03#8) = true := by decide

/-- 95_test_vectors.md VH7. -/
theorem test_step_ror_accumulator : steps { start 0x0200#16 [(0x0200#16, 0x6A#8)] with a := 0x01#8, p := 0x01#8 }
    (fun t => t.a == 0x80#8 && t.p == 0x81#8) = true := by decide

/-- 95_test_vectors.md VH10. -/
theorem test_step_ror_zeropageX_wraps : steps { start 0x0200#16 [(0x0200#16, 0x76#8), (0x0201#16, 0xFF#8), (0x0001#16, 0x02#8)] with x := 0x02#8, p := 0x01#8 }
    (fun t => t.mem.read 0x0001#16 == 0x81#8 && t.p == 0x80#8 && t.cyc == 6) = true := by decide

/-- 95_test_vectors.md VB1. -/
theorem test_step_bpl_taken : steps (start 0x1000#16 [(0x1000#16, 0x10#8), (0x1001#16, 0x02#8)])
    (fun t => t.pc == 0x1004#16 && t.cyc == 3) = true := by decide

/-- 95_test_vectors.md VB2. -/
theorem test_step_bmi_not_taken : steps (start 0x1000#16 [(0x1000#16, 0x30#8), (0x1001#16, 0x02#8)])
    (fun t => t.pc == 0x1002#16 && t.cyc == 2) = true := by decide

/-- 95_test_vectors.md VB3. -/
theorem test_step_bvc_loop : steps (start 0x1000#16 [(0x1000#16, 0x50#8), (0x1001#16, 0xFE#8)])
    (fun t => t.pc == 0x1000#16 && t.cyc == 3) = true := by decide

/-- 95_test_vectors.md VB4. -/
theorem test_step_bvs_back_a_page : steps { start 0x1000#16 [(0x1000#16, 0x70#8), (0x1001#16, 0x80#8)] with p := 0x40#8 }
    (fun t => t.pc == 0x0F82#16 && t.cyc == 4) = true := by decide

/-- 95_test_vectors.md VB5. -/
theorem test_step_bcc_forward_a_page : steps (start 0x10F0#16 [(0x10F0#16, 0x90#8), (0x10F1#16, 0x7F#8)])
    (fun t => t.pc == 0x1171#16 && t.cyc == 4) = true := by decide

/-- 95_test_vectors.md VB6. -/
theorem test_step_bcs_zero_displacement : steps { start 0x1000#16 [(0x1000#16, 0xB0#8)] with p := 0x01#8 }
    (fun t => t.pc == 0x1002#16 && t.cyc == 3) = true := by decide

/-- 95_test_vectors.md VB7. -/
theorem test_step_beq_page_of_advanced_pc : steps { start 0x10FE#16 [(0x10FE#16, 0xF0#8), (0x10FF#16, 0x05#8)] with p := 0x02#8 }
    (fun t => t.pc == 0x1105#16 && t.cyc == 3) = true := by decide

/-- 95_test_vectors.md VB10. -/
theorem test_step_beq_wraps : steps { start 0xFFF0#16 [(0xFFF0#16, 0xF0#8), (0xFFF1#16, 0x10#8)] with p := 0x02#8 }
    (fun t => t.pc == 0x0002#16 && t.cyc == 4) = true := by decide

/-- 95_test_vectors.md VB12. -/
theorem test_step_bne_back : steps (start 0x1002#16 [(0x1002#16, 0xD0#8), (0x1003#16, 0xFC#8)])
    (fun t => t.pc == 0x1000#16 && t.cyc == 3) = true := by decide

/-- 95_test_vectors.md VB11. -/
theorem test_step_bne_not_taken : steps { start 0x1000#16 [(0x1000#16, 0xD0#8), (0x1001#16, 0x10#8)] with p := 0x02#8 }
    (fun t => t.pc == 0x1002#16 && t.cyc == 2) = true := by decide

/-- 95_test_vectors.md S2. -/
theorem test_step_brk : steps { start 0x1000#16 [(0xFFFE#16, 0x00#8), (0xFFFF#16, 0x20#8)] with p := 0x09#8 }
    (fun t => t.pc == 0x2000#16 && t.sp == 0xFC#8 && t.p == 0x1D#8 && t.cyc == 7 && t.mem.read 0x01FF#16 == 0x10#8 && t.mem.read 0x01FE#16 == 0x02#8 && t.mem.read 0x01FD#16 == 0x39#8) = true := by decide

/-- 95_test_vectors.md VK2. -/
theorem test_step_brk_stack_wraps : steps { start 0x12FF#16 [(0xFFFE#16, 0x34#8), (0xFFFF#16, 0x12#8)] with p := 0x08#8, sp := 0x01#8 }
    (fun t => t.pc == 0x1234#16 && t.sp == 0xFE#8 && t.p == 0x1C#8 && t.mem.read 0x0101#16 == 0x13#8 && t.mem.read 0x0100#16 == 0x01#8 && t.mem.read 0x01FF#16 == 0x38#8) = true := by decide

/-- 95_test_vectors.md VM3. -/
theorem test_step_cmp_sign_bit : steps { start 0x0200#16 [(0x0200#16, 0xC9#8)] with a := 0x80#8 }
    (fun t => t.a == 0x80#8 && t.p == 0x81#8) = true := by decide

/-- 95_test_vectors.md VM8. -/
theorem test_step_cmp_absoluteY_page_crossing : steps { start 0x0200#16 [(0x0200#16, 0xD9#8), (0x0201#16, 0xFF#8), (0x0202#16, 0x20#8), (0x2100#16, 0x01#8)] with a := 0x01#8, y := 0x01#8 }
    (fun t => t.p == 0x03#8 && t.cyc == 5) = true := by decide

/-- 95_test_vectors.md VM6. -/
theorem test_step_cpx_equal : steps { start 0x0200#16 [(0x0200#16, 0xE0#8), (0x0201#16, 0x05#8)] with x := 0x05#8 }
    (fun t => t.p == 0x03#8) = true := by decide

/-- 95_test_vectors.md VM7. -/
theorem test_step_cpy_less : steps (start 0x0200#16 [(0x0200#16, 0xC0#8), (0x0201#16, 0x01#8)])
    (fun t => t.p == 0x80#8) = true := by decide

/-- 95_test_vectors.md VM10. -/
theorem test_step_dec_wraps : steps (start 0x0200#16 [(0x0200#16, 0xC6#8), (0x0201#16, 0x10#8), (0x0010#16, 0x00#8)])
    (fun t => t.mem.read 0x0010#16 == 0xFF#8 && t.p == 0x80#8 && t.cyc == 5) = true := by decide

/-- 95_test_vectors.md VM12. -/
theorem test_step_inc_keeps_v_and_c : steps { start 0x0200#16 [(0x0200#16, 0xF6#8), (0x0201#16, 0xFF#8), (0x0000#16, 0xFF#8)] with x := 0x01#8, p := 0x41#8 }
    (fun t => t.mem.read 0x0000#16 == 0x00#8 && t.p == 0x43#8 && t.cyc == 6) = true := by decide

/-- 95_test_vectors.md VM13. -/
theorem test_step_dex_wraps : steps (start 0x0200#16 [(0x0200#16, 0xCA#8)])
    (fun t => t.x == 0xFF#8 && t.p == 0x80#8) = true := by decide

/-- 95_test_vectors.md VM14. -/
theorem test_step_dey : steps { start 0x0200#16 [(0x0200#16, 0x88#8)] with y := 0x80#8 }
    (fun t => t.y == 0x7F#8 && t.p == 0x00#8) = true := by decide

/-- 95_test_vectors.md VM15. -/
theorem test_step_inx_wraps : steps { start 0x0200#16 [(0x0200#16, 0xE8#8)] with x := 0xFF#8 }
    (fun t => t.x == 0x00#8 && t.p == 0x02#8) = true := by decide

/-- 95_test_vectors.md VM16. -/
theorem test_step_iny : steps (start 0x0200#16 [(0x0200#16, 0xC8#8)])
    (fun t => t.y == 0x01#8 && t.p == 0x00#8) = true := by decide

/-- 95_test_vectors.md VJ1. -/
theorem test_step_jmp_absolute : steps (start 0x0200#16 [(0x0200#16, 0x4C#8), (0x0201#16, 0x34#8), (0x0202#16, 0x12#8)])
    (fun t => t.pc == 0x1234#16 && t.cyc == 3) = true := by decide

/-- 95_test_vectors.md S4. -/
theorem test_step_jmp_indirect_page_wrap : steps (start 0x0200#16 [(0x0200#16, 0x6C#8), (0x0201#16, 0xFF#8), (0x0202#16, 0x20#8), (0x20FF#16, 0x34#8), (0x2000#16, 0x12#8), (0x2100#16, 0x56#8)])
    (fun t => t.pc == 0x1234#16 && t.cyc == 5) = true := by decide

/-- 95_test_vectors.md VJ5. -/
theorem test_step_jsr_at_top : steps (start 0xFFFD#16 [(0xFFFD#16, 0x20#8), (0xFFFF#16, 0x20#8)])
    (fun t => t.pc == 0x2000#16 && t.sp == 0xFD#8 && t.mem.read 0x01FF#16 == 0xFF#8 && t.mem.read 0x01FE#16 == 0xFF#8 && t.cyc == 6) = true := by decide

/-- 95_test_vectors.md VJ8. -/
theorem test_step_rts_pops_wrap : steps (start 0x0200#16 [(0x0200#16, 0x60#8), (0x0100#16, 0x33#8), (0x0101#16, 0x22#8)])
    (fun t => t.pc == 0x2234#16 && t.sp == 0x01#8 && t.cyc == 6) = true := by decide

/-- 95_test_vectors.md VJ9. -/
theorem test_step_rti : steps { start 0x0200#16 [(0x0200#16, 0x40#8), (0x01FD#16, 0x39#8), (0x01FE#16, 0x02#8), (0x01FF#16, 0x10#8)] with sp := 0xFC#8 }
    (fun t => t.p == 0x39#8 && t.pc == 0x1002#16 && t.sp == 0xFF#8 && t.cyc == 6) = true := by decide

/-- 95_test_vectors.md VJ10. -/
theorem test_step_rti_forced : steps { start 0x0200#16 [(0x0200#16, 0x40#8), (0x01FD#16, 0x09#8), (0x01FE#16, 0x02#8), (0x01FF#16, 0x10#8)] with sp := 0xFC#8, params := { Config.defaultParams with pullForceBU := true } }
    (fun t => t.p == 0x39#8 && t.pc == 0x1002#16) = true := by decide

/-- 95_test_vectors.md VD5. -/
theorem test_step_lda_absoluteY_wraps : steps { start 0x0200#16 [(0x0200#16, 0xB9#8), (0x0201#16, 0xFF#8), (0x0202#16, 0xFF#8), (0x0001#16, 0x01#8)] with y := 0x02#8 }
    (fun t => t.a == 0x01#8 && t.cyc == 5) = true := by decide

/-- 95_test_vectors.md VD7. -/
theorem test_step_lda_indirectY : steps { start 0x0200#16 [(0x0200#16, 0xB1#8), (0x0201#16, 0xFF#8), (0x00FF#16, 0xFF#8), (0x0000#16, 0x30#8), (0x3100#16, 0x80#8)] with y := 0x01#8 }
    (fun t => t.a == 0x80#8 && t.p == 0x80#8 && t.cyc == 6) = true := by decide

/-- 95_test_vectors.md VD9. -/
theorem test_step_ldx_zeropageY_wraps : steps { start 0x0200#16 [(0x0200#16, 0xB6#8), (0x0201#16, 0xFF#8), (0x0001#16, 0x80#8)] with y := 0x02#8 }
    (fun t => t.x == 0x80#8 && t.p == 0x80#8 && t.cyc == 4) = true := by decide

/-- 95_test_vectors.md VD11. -/
theorem test_step_ldy_zero : steps { start 0x0200#16 [(0x0200#16, 0xA0#8)] with y := 0x03#8 }
    (fun t => t.y == 0x00#8 && t.p == 0x02#8) = true := by decide

/-- 95_test_vectors.md VD12. -/
theorem test_step_sta_absoluteX_penalty : steps { start 0x0200#16 [(0x0200#16, 0x9D#8), (0x0201#16, 0xFF#8), (0x0202#16, 0x12#8)] with a := 0x42#8, x := 0x01#8 }
    (fun t => t.mem.read 0x1300#16 == 0x42#8 && t.p == 0x00#8 && t.cyc == 6) = true := by decide

/-- 95_test_vectors.md VD13. -/
theorem test_step_sta_indirectY_no_penalty : steps { start 0x0200#16 [(0x0200#16, 0x91#8), (0x0201#16, 0xFF#8), (0x00FF#16, 0xFF#8), (0x0000#16, 0x30#8)] with a := 0x42#8, y := 0x01#8, params := { Config.defaultParams with penaltyOnAllUsers := false } }
    (fun t => t.mem.read 0x3100#16 == 0x42#8 && t.cyc == 6) = true := by decide

/-- 95_test_vectors.md VD14. -/
theorem test_step_stx_zeropageY_wraps : steps { start 0x0200#16 [(0x0200#16, 0x96#8), (0x0201#16, 0xFF#8)] with x := 0x07#8, y := 0x02#8 }
    (fun t => t.mem.read 0x0001#16 == 0x07#8 && t.cyc == 4) = true := by decide

/-- 95_test_vectors.md VD15. -/
theorem test_step_sty_absolute : steps { start 0x0200#16 [(0x0200#16, 0x8C#8), (0x0201#16, 0x34#8), (0x0202#16, 0x12#8)] with y := 0x09#8, p := 0xFF#8 }
    (fun t => t.mem.read 0x1234#16 == 0x09#8 && t.p == 0xFF#8 && t.cyc == 4) = true := by decide

/-- 95_test_vectors.md VT1. -/
theorem test_step_pha_wraps : steps { start 0x0200#16 [(0x0200#16, 0x48#8)] with a := 0x5A#8, sp := 0x00#8 }
    (fun t => t.mem.read 0x0100#16 == 0x5A#8 && t.sp == 0xFF#8 && t.cyc == 3) = true := by decide

/-- 95_test_vectors.md VT2. -/
theorem test_step_php_keeps_p : steps (start 0x0200#16 [(0x0200#16, 0x08#8)])
    (fun t => t.mem.read 0x01FF#16 == 0x30#8 && t.sp == 0xFE#8 && t.p == 0x00#8 && t.cyc == 3) = true := by decide

/-- 95_test_vectors.md VT5. -/
theorem test_step_pla_wraps : steps { start 0x0200#16 [(0x0200#16, 0x68#8), (0x0100#16, 0x00#8)] with a := 0x01#8 }
    (fun t => t.a == 0x00#8 && t.p == 0x02#8 && t.sp == 0x00#8 && t.cyc == 4) = true := by decide

/-- 95_test_vectors.md VT6. -/
theorem test_step_plp : steps { start 0x0200#16 [(0x0200#16, 0x28#8), (0x01FF#16, 0xC3#8)] with sp := 0xFE#8 }
    (fun t => t.p == 0xC3#8 && t.sp == 0xFF#8 && t.cyc == 4) = true := by decide

/-- 95_test_vectors.md VT7. -/
theorem test_step_plp_forced : steps { start 0x0200#16 [(0x0200#16, 0x28#8), (0x01FF#16, 0xC3#8)] with sp := 0xFE#8, params := { Config.defaultParams with pullForceBU := true } }
    (fun t => t.p == 0xF3#8) = true := by decide

/-- 95_test_vectors.md VT8. -/
theorem test_step_tax : steps { start 0x0200#16 [(0x0200#16, 0xAA#8)] with a := 0x80#8 }
    (fun t => t.x == 0x80#8 && t.p == 0x80#8) = true := by decide

/-- 95_test_vectors.md VT9. -/
theorem test_step_txa : steps { start 0x0200#16 [(0x0200#16, 0x8A#8)] with x := 0x01#8, p := 0x82#8 }
    (fun t => t.a == 0x01#8 && t.p == 0x00#8) = true := by decide

/-- 95_test_vectors.md VT10. -/
theorem test_step_tay : steps { start 0x0200#16 [(0x0200#16, 0xA8#8)] with y := 0x05#8 }
    (fun t => t.y == 0x00#8 && t.p == 0x02#8) = true := by decide

/-- 95_test_vectors.md VT11. -/
theorem test_step_tya : steps { start 0x0200#16 [(0x0200#16, 0x98#8)] with y := 0xFE#8 }
    (fun t => t.a == 0xFE#8 && t.p == 0x80#8) = true := by decide

/-- 95_test_vectors.md VT12. -/
theorem test_step_tsx : steps (start 0x0200#16 [(0x0200#16, 0xBA#8)])
    (fun t => t.x == 0xFF#8 && t.p == 0x80#8) = true := by decide

/-- 95_test_vectors.md VT13. -/
theorem test_step_txs_keeps_p : steps { start 0x0200#16 [(0x0200#16, 0x9A#8)] with p := 0x82#8 }
    (fun t => t.sp == 0x00#8 && t.p == 0x82#8) = true := by decide

/-- 95_test_vectors.md VG1. -/
theorem test_step_sec : steps (start 0x0200#16 [(0x0200#16, 0x38#8)])
    (fun t => t.p == 0x01#8 && t.cyc == 2) = true := by decide

/-- 95_test_vectors.md VG2. -/
theorem test_step_clc : steps { start 0x0200#16 [(0x0200#16, 0x18#8)] with p := 0xFF#8 }
    (fun t => t.p == 0xFE#8) = true := by decide

/-- 95_test_vectors.md VG3. -/
theorem test_step_sed : steps (start 0x0200#16 [(0x0200#16, 0xF8#8)])
    (fun t => t.p == 0x08#8) = true := by decide

/-- 95_test_vectors.md VG4. -/
theorem test_step_cld : steps { start 0x0200#16 [(0x0200#16, 0xD8#8)] with p := 0x08#8 }
    (fun t => t.p == 0x00#8) = true := by decide

/-- 95_test_vectors.md VG5. -/
theorem test_step_sei : steps (start 0x0200#16 [(0x0200#16, 0x78#8)])
    (fun t => t.p == 0x04#8) = true := by decide

/-- 95_test_vectors.md VG6. -/
theorem test_step_cli : steps { start 0x0200#16 [(0x0200#16, 0x58#8)] with p := 0x04#8 }
    (fun t => t.p == 0x00#8) = true := by decide

/-- 95_test_vectors.md VG7. -/
theorem test_step_clv : steps { start 0x0200#16 [(0x0200#16, 0xB8#8)] with p := 0x40#8 }
    (fun t => t.p == 0x00#8) = true := by decide

/-- 95_test_vectors.md VG8. -/
theorem test_step_nop : steps (start 0x1000#16 [(0x1000#16, 0xEA#8)])
    (fun t => t.pc == 0x1001#16 && t.cyc == 2 && t.p == 0x00#8) = true := by decide

/-- 95_test_vectors.md VG11. -/
theorem test_step_stub_noOp_at_top : steps { start 0xFFFF#16 [(0xFFFF#16, 0xFF#8)] with params := { Config.defaultParams with unimplPolicy := .noOp } }
    (fun t => t.pc == 0x0000#16 && t.cyc == 0) = true := by decide

/-- 95_test_vectors.md section 2.11. -/
theorem test_step_fetch_wraps : steps (start 0xFFFF#16 [(0xFFFF#16, 0x69#8), (0x0000#16, 0x12#8)])
    (fun t => t.a == 0x12#8 && t.pc == 0x0001#16 && t.cyc == 2) = true := by decide

/-- 95_test_vectors.md VG9. -/
theorem test_step_stub_faults : (match step (start 0x1000#16 [(0x1000#16, 0x02#8)]) with
    | .fault r => r == .unimplementedOpcode 0x02#8 0x1000#16
    | _ => false) = true := by decide

/-- A word placed by the host is what the next step runs. -/
theorem test_withFetchWord : (match step (State.reset.withFetchWord 16 0x12A9) with
    | .next t => t.a == 0x12#8 && t.pc == 0x0602#16
    | _ => false) = true := by decide

/-! ## Host operations, disassembly and runs -/

/-- The preview of a stub does not fault (95_test_vectors.md section 2.11). -/
theorem test_preview_stub : (match previewText 0x1000#16 (start 0x1000#16 [(0x1000#16, 0x02#8)]) with
    | .ok text => text == "1000: ???"
    | .error _ => false) = true := by decide

theorem test_text_branch_back :
    disassembly ((decodeBytes 0xD0#8 0xFB#8 0x00#8).decodedAt 0x0608#16) = "0608: BNE -$05" := by decide

theorem test_text_zeropageX :
    disassembly ((decodeBytes 0xB5#8 0xFF#8 0x00#8).decodedAt 0x0200#16) = "0200: LDA $FF,X" := by decide

theorem test_host_reset_keeps_flags : (hostReset { State.reset with p := 0xFF#8, cyc := 9, a := 1#8 }).p = 0xFF#8 := by
  decide

/-- The host writes P as a whole (70_reset_and_hazards.md R376). -/
theorem test_host_writes_p : (match hostApply (.writeP 0xC3#8) State.reset with
    | .next t => t.flag .n && t.flag .v && t.flag .z && t.flag .c && !t.flag .d && t.pc == 0x0600#16
    | _ => false) = true := by decide

theorem test_run_stops : (match run (some 0x0600#16) 5 State.reset with
    | .stopped s => s == State.reset
    | _ => false) = true := by decide

theorem test_run_faults : (match run none 5 (start 0x0600#16 [(0x0600#16, 0xEA#8), (0x0601#16, 0x02#8)]) with
    | .fault r => r == .unimplementedOpcode 0x02#8 0x0601#16
    | _ => false) = true := by decide

/-! ## Helpers against the spec's definitions -/

/-- `sext_16` as 00_scope.md R8 defines it. -/
theorem test_sext16 (v : Byte) : sext16 v = if v.toNat < 0x80 then zext16 v else zext16 v + 0xFF00#16 := by
  revert v; decide

/-- The masks of 10_state.md R24. -/
theorem test_flag_masks : [Flag.n, .v, .u, .b, .d, .i, .z, .c].map Flag.mask =
    [0x80#8, 0x40#8, 0x20#8, 0x10#8, 0x08#8, 0x04#8, 0x02#8, 0x01#8] := by decide

/-! ## Witnesses: a state and operands that meet the hypotheses of each statement -/

/-- A state whose registers and memory are at the edges of their ranges. -/
def edge : State :=
  { start 0xFFFF#16 [(0x0000#16, 0x30#8), (0x00FF#16, 0xFF#8), (0xFFFF#16, 0x69#8)] with
    a := 0x99#8, x := 0xFF#8, y := 0x01#8, p := 0x09#8 }

/-- A decoded instruction of a given mode and operand. -/
def inMode (mode : Mode) (operand : Word) : Decoded :=
  { opcode := 0x00#8, mnemonic := .lda, mode := mode, length := 2, baseCycles := 2, pageClass := .read
    address := 0x0000#16, operand := operand }

theorem witness_UnfilledSlotsHoldTheStub : 0x02#8 ∈ unfilledOpcodes ∧ 0xFF#8 ∈ unfilledOpcodes := by decide
theorem witness_DecodeEncodeRoundTrip : (Instr.unimplemented 0xFF#8).wf = true ∧ (Instr.jmpIndirect 0xFFFF#16).wf = true := by
  decide
theorem witness_EncodeDecodeRoundTrip : decode [0x6C#8, 0xFF#8, 0xFF#8, 0x00#8] = .ok (.jmpIndirect 0xFFFF#16, [0x00#8]) := rfl
theorem witness_StepRunsDecodedInstruction :
    decode [edge.mem.read edge.pc, edge.mem.read (edge.pc + 1#16), edge.mem.read (edge.pc + 2#16)] =
      .ok (.adcImmediate 0x30#8, [0x00#8]) := rfl
theorem witness_FetchWrapsAtTopOfMemory :
    (slotDescriptor ((start 0x0000#16 [(0xFFFE#16, 0xAD#8)]).mem.read 0xFFFE#16)).length = 3 := by decide
theorem witness_StoreThenLoadReturnsByte : ∃ t, (Instr.staIndirectY 0xFF#8).descriptor.mnemonic = .sta ∧
    (Instr.ldaAbsolute 0x3100#16).descriptor.mnemonic = .lda ∧
    operandAddress (.staIndirectY 0xFF#8) edge = some 0x3100#16 ∧ exec (.staIndirectY 0xFF#8) edge = .next t ∧
    operandAddress (.ldaAbsolute 0x3100#16) t = some 0x3100#16 := ⟨_, rfl, rfl, rfl, rfl, rfl⟩
theorem witness_CanonicalMemoryIsUnique :
    Memory.wf [(0, 0x01#8), (65535, 0xFF#8)] = true ∧ SameBytes [(0, 0x01#8), (65535, 0xFF#8)] [(0, 0x01#8), (65535, 0xFF#8)] :=
  ⟨rfl, fun _ => rfl⟩
theorem witness_StepKeepsMemoryCanonical : ∃ t, edge.Inv ∧ step edge = .next t := ⟨_, rfl, rfl⟩
theorem witness_StepKeepsParams : ∃ t, step edge = .next t := ⟨_, rfl⟩
theorem witness_ZeroPageModes :
    effectiveAddress (inMode .zeropage 0x00FF#16) edge = some 0x00FF#16 ∧
    effectiveAddress (inMode .zeropageX 0x00FF#16) edge = some 0x00FE#16 ∧
    effectiveAddress (inMode .zeropageY 0x00FF#16) edge = some 0x0000#16 := by decide
theorem witness_AbsoluteModes :
    effectiveAddress (inMode .absolute 0xFFFF#16) edge = some 0xFFFF#16 ∧
    effectiveAddress (inMode .absoluteX 0xFFFF#16) edge = some 0x00FE#16 ∧
    effectiveAddress (inMode .absoluteY 0xFFFF#16) edge = some 0x0000#16 := by decide
theorem witness_IndirectPointerPageWrap :
    effectiveAddress (inMode .indirect 0x00FF#16) edge = some 0x30FF#16 := by decide
theorem witness_ZeroPagePointers :
    effectiveAddress (inMode .indirectX 0x0000#16) edge = some 0x30FF#16 ∧
    effectiveAddress (inMode .indirectY 0x00FF#16) edge = some 0x3100#16 := by decide
theorem witness_PageCrossingCycle :
    pageCycles (inMode .absoluteX 0x1201#16) edge = 1 ∧ pageCycles (inMode .absoluteX 0x1200#16) edge = 0 ∧
    pageCycles (inMode .absoluteY 0x12FF#16) edge = 1 ∧ pageCycles (inMode .absoluteY 0x12FE#16) edge = 0 ∧
    pageCycles (inMode .indirectY 0x00FF#16) edge = 1 ∧ pageCycles (inMode .indirectY 0x0000#16) edge = 0 := by decide
theorem witness_DecodedValueOfEveryMode :
    decodedValue (inMode .accumulator 0x0000#16) edge = .byte 0x99#8 ∧
    decodedValue (inMode .immediate 0x00FF#16) edge = .byte 0xFF#8 ∧
    decodedValue (inMode .branch 0x0080#16) edge = .byte 0x80#8 ∧
    decodedValue (inMode .absolute 0xFFFF#16) edge = .byte 0x69#8 ∧
    decodedValue (inMode .indirect 0x00FF#16) edge = .word 0x30FF#16 ∧
    decodedValue (inMode .implied 0x0000#16) edge = .none := by decide
theorem witness_AdcBinaryResult :
    (Instr.adcIndirectY 0xFF#8).descriptor.mnemonic = .adc ∧ State.reset.flag .d = false := by decide
theorem witness_AdcDecimalResult : (Instr.adcImmediate 0x01#8).descriptor.mnemonic = .adc ∧ edge.flag .d = true := by decide
theorem witness_SbcResult : (Instr.sbcAbsoluteX 0xFFFF#16).descriptor.mnemonic = .sbc := by decide
theorem witness_OverflowIsSignedOverflow :
    (∃ t, operandByte (.adcImmediate 0x7F#8) State.reset = some 0x7F#8 ∧ exec (.adcImmediate 0x7F#8) State.reset = .next t ∧
      (Instr.adcImmediate 0x7F#8).descriptor.mnemonic = .adc ∧ State.reset.flag .d = false) ∧
    (∃ t, operandByte (.sbcImmediate 0x80#8) edge = some 0x80#8 ∧ exec (.sbcImmediate 0x80#8) edge = .next t ∧
      (Instr.sbcImmediate 0x80#8).descriptor.mnemonic = .sbc) := ⟨⟨_, rfl, rfl, rfl, rfl⟩, ⟨_, rfl, rfl, rfl⟩⟩
theorem witness_DecimalAddIsDecimal : (Instr.adcImmediate 0x99#8).descriptor.mnemonic = .adc ∧ edge.flag .d = true ∧
    operandByte (.adcImmediate 0x99#8) edge = some 0x99#8 ∧ validBcd edge.a = true ∧ validBcd 0x99#8 = true := by decide
theorem witness_DecimalSubtractIsDecimal : (Instr.sbcImmediate 0x00#8).descriptor.mnemonic = .sbc ∧ edge.flag .d = true ∧
    operandByte (.sbcImmediate 0x00#8) edge = some 0x00#8 ∧ validBcd edge.a = true ∧ validBcd 0x00#8 = true := by decide
theorem witness_LogicResults : (Instr.andImmediate 0xFF#8).descriptor.mnemonic = .and ∧
    (Instr.oraIndirectX 0x00#8).descriptor.mnemonic = .ora ∧ (Instr.eorAbsoluteY 0xFFFF#16).descriptor.mnemonic = .eor := by decide
theorem witness_BitTestResult : (Instr.bitAbsolute 0xFFFF#16).descriptor.mnemonic = .bit := by decide
theorem witness_ShiftResults : (Instr.aslAccumulator).descriptor.mnemonic = .asl ∧
    (Instr.lsrAbsoluteX 0xFFFF#16).descriptor.mnemonic = .lsr ∧ (Instr.rolZeropage 0xFF#8).descriptor.mnemonic = .rol ∧
    (Instr.rorAccumulator).descriptor.mnemonic = .ror ∧ (Instr.aslAccumulator).descriptor.mode = .accumulator ∧
    (Instr.lsrAbsoluteX 0xFFFF#16).descriptor.mode ≠ .accumulator := by decide
theorem witness_CompareResults : (Instr.cmpIndirectX 0xFF#8).descriptor.mnemonic = .cmp ∧
    (Instr.cpxImmediate 0x00#8).descriptor.mnemonic = .cpx ∧ (Instr.cpyZeropage 0xFF#8).descriptor.mnemonic = .cpy := by decide
theorem witness_MemoryIncDecResults : (Instr.decAbsoluteX 0xFFFF#16).descriptor.mnemonic = .dec ∧
    (Instr.incZeropageX 0xFF#8).descriptor.mnemonic = .inc := by decide
theorem witness_BranchResults : branchTest (Instr.beq 0x80#8).descriptor.mnemonic = some (.z, true) ∧ edge.flag .z ≠ true ∧
    branchTest (Instr.bcs 0x7F#8).descriptor.mnemonic = some (.c, true) ∧ edge.flag .c = true := by decide
theorem witness_LoadResults : (Instr.ldaIndirectY 0xFF#8).descriptor.mnemonic = .lda ∧
    (Instr.ldxZeropageY 0xFF#8).descriptor.mnemonic = .ldx ∧ (Instr.ldyAbsoluteX 0xFFFF#16).descriptor.mnemonic = .ldy := by decide
theorem witness_StoreResults : (Instr.staIndirectX 0xFF#8).descriptor.mnemonic = .sta ∧
    (Instr.stxZeropageY 0xFF#8).descriptor.mnemonic = .stx ∧ (Instr.styAbsolute 0xFFFF#16).descriptor.mnemonic = .sty := by decide
theorem witness_PushResults : (Instr.pha = .pha ∧ edge.a = 0x99#8) ∧ (Instr.php = .php ∧ edge.p ||| 0x30#8 = 0x39#8) := by decide
theorem witness_StackRoundTrip : hiByte 0x0200#16 ≠ 0x01#8 ∧ hiByte 0x00FF#16 ≠ 0x01#8 := by decide
theorem witness_FullStackWraps : (List.replicate 256 0xFF#8).length = 256 := List.length_replicate
theorem witness_FlagInstructionResults : flagWrite (Instr.sec).descriptor.mnemonic = some (.c, true) ∧
    flagWrite (Instr.clv).descriptor.mnemonic = some (.v, false) := by decide
theorem witness_StubFollowsPolicy :
    { State.reset with params := { Config.defaultParams with unimplPolicy := .noOp } }.params.unimplPolicy = .noOp ∧
    State.reset.params.unimplPolicy = .fault := by decide
theorem witness_StepFaultsExactlyOnUnfilledSlots :
    step (start 0x1000#16 [(0x1000#16, 0x02#8)]) = .fault (.unimplementedOpcode 0x02#8 0x1000#16) := rfl
theorem witness_FlagsChangeOnlyByWriters : ∃ t, exec (.staAbsolute 0xFFFF#16) edge = .next t ∧
    (Instr.staAbsolute 0xFFFF#16).descriptor.mnemonic ∉ Flag.writers .c := ⟨_, rfl, by decide⟩
theorem witness_RegistersChangeOnlyByWriters : ∃ t, exec (.aslAbsoluteX 0xFFFF#16) edge = .next t ∧
    writesA (Instr.aslAbsoluteX 0xFFFF#16).descriptor = false ∧ writesX (Instr.aslAbsoluteX 0xFFFF#16).descriptor = false ∧
    writesY (Instr.aslAbsoluteX 0xFFFF#16).descriptor = false ∧ writesSp (Instr.aslAbsoluteX 0xFFFF#16).descriptor = false :=
  ⟨_, rfl, rfl, rfl, rfl, rfl⟩
theorem witness_MemoryChangesOnlyWhereStored :
    (∃ t, exec (.staAbsolute 0xFFFF#16) edge = .next t ∧ t.mem.read 0xFFFF#16 ≠ edge.mem.read 0xFFFF#16) ∧
    (∃ t, exec .pha edge = .next t ∧ t.mem.read 0x01FF#16 ≠ edge.mem.read 0x01FF#16) :=
  ⟨⟨_, rfl, by decide⟩, ⟨_, rfl, by decide⟩⟩
theorem witness_CycleAccounting : ∃ t, exec (.ldaAbsoluteX 0x12FF#16) edge = .next t ∧
    branchTest (Instr.ldaAbsoluteX 0x12FF#16).descriptor.mnemonic = none := ⟨_, rfl, rfl⟩
theorem witness_CycleCountDecidesNothing : (∃ t, step edge = .next t) ∧
    ∃ r, step (start 0x1000#16 [(0x1000#16, 0x02#8)]) = .fault r := ⟨⟨_, rfl⟩, ⟨_, rfl⟩⟩
theorem witness_InterruptFlagMasksNothing : ∃ t, Instr.plp ≠ .php ∧ Instr.plp ≠ .brk ∧ exec .plp edge = .next t :=
  ⟨_, by decide, by decide, rfl⟩
theorem witness_InterruptFlagMasksNothing_php : ∃ t pushed, pushed = 0x0100#16 + zext16 edge.sp ∧
    exec .php edge = .next t := ⟨_, _, rfl, rfl⟩
theorem witness_InterruptFlagMasksNothing_brk : ∃ t pushed, pushed = 0x0100#16 + zext16 (edge.sp - 2#8) ∧
    exec .brk edge = .next t := ⟨_, _, rfl, rfl⟩
theorem witness_InterruptFlagMasksNothing_fault :
    exec (.unimplemented 0x02#8) State.reset = .fault (.unimplementedOpcode 0x02#8 0x0600#16) := rfl
theorem witness_HostNeverWritesCycles : HostAction.writeFlag .c true ≠ .step ∧ HostAction.reset ≠ .step := by decide

end Sys2Proof.Tests
end

section
/-! PROOFS. What an instruction may write (10_state.md R21 to R25) and what no step and no host operation writes
(10_state.md R33, R34). `WritesOnly` is closed under the updates of a state, so a meaning built from updates has it as
soon as each update is permitted; the case split over the mnemonics is made once, in `handlerOf_writesOnly`. -/

namespace Sys2Proof.Machine

/-! ## The flag computations leave the other flags -/

section Flags
variable (p v : Byte)

theorem setFlag_keepsFlagsExcept (f : Flag) (b : Bool) : KeepsFlagsExcept p (setFlag p f b) [f] :=
  fun _ hg => getFlag_setFlag_of_ne p b (List.ne_of_not_mem_cons hg)

theorem setNZ_keepsFlagsExcept : KeepsFlagsExcept p (setNZ p v) [.n, .z] := fun g hg => by
  simp only [List.mem_cons, List.not_mem_nil, or_false, not_or] at hg
  simp [getFlag_setNZ, hg]

theorem setNZC_keepsFlagsExcept (c : Bool) : KeepsFlagsExcept p (setNZC p v c) [.n, .z, .c] := fun g hg => by
  simp only [List.mem_cons, List.not_mem_nil, or_false, not_or] at hg
  simp [getFlag_setNZC, hg]

theorem setNVZC_keepsFlagsExcept (r : AluResult) : KeepsFlagsExcept p (setNVZC p r) [.n, .v, .z, .c] := fun g hg => by
  simp only [List.mem_cons, List.not_mem_nil, or_false, not_or] at hg
  simp [getFlag_setNVZC, hg]

theorem bitFlags_keepsFlagsExcept (a : Byte) : KeepsFlagsExcept p (bitFlags p a v) [.n, .v, .z] := fun g hg => by
  simp only [List.mem_cons, List.not_mem_nil, or_false, not_or] at hg
  simp [getFlag_bitFlags, hg]

/-- No flag stands outside the list of all eight, so a write of the whole byte meets this (10_state.md R25). -/
theorem keepsFlagsExcept_all (q : Byte) : KeepsFlagsExcept p q [.n, .v, .u, .b, .d, .i, .z, .c] := fun g hg => by
  cases g <;> simp at hg

end Flags

/-! ## The permission of a row to write registers and flags -/

/-- The row is a listed writer of each of the flags (10_state.md R25). -/
def writesFlags (d : Descriptor) (fs : List Flag) : Bool := fs.all fun f => f.writers.contains d.mnemonic

theorem mem_writers_of_writesFlags {d : Descriptor} {fs : List Flag} {f : Flag} (h : writesFlags d fs = true)
    (hf : f ∈ fs) : d.mnemonic ∈ f.writers := by
  simpa using List.all_eq_true.1 h f hf

/-- From one state to another, no register and no flag changed that the row is no listed writer of, and no launch
parameter (10_state.md R21 to R25, R34). -/
structure WritesOnly (d : Descriptor) (s t : State) : Prop where
  a : writesA d = false → t.a = s.a
  x : writesX d = false → t.x = s.x
  y : writesY d = false → t.y = s.y
  sp : writesSp d = false → t.sp = s.sp
  flag : ∀ f : Flag, d.mnemonic ∉ f.writers → t.flag f = s.flag f
  params : t.params = s.params

namespace WritesOnly
variable {d : Descriptor} {s t u : State}

theorem refl (d : Descriptor) (s : State) : WritesOnly d s s :=
  ⟨fun _ => rfl, fun _ => rfl, fun _ => rfl, fun _ => rfl, fun _ _ => rfl, rfl⟩

theorem trans (h : WritesOnly d s t) (k : WritesOnly d t u) : WritesOnly d s u where
  a hd := (k.a hd).trans (h.a hd)
  x hd := (k.x hd).trans (h.x hd)
  y hd := (k.y hd).trans (h.y hd)
  sp hd := (k.sp hd).trans (h.sp hd)
  flag f hf := (k.flag f hf).trans (h.flag f hf)
  params := k.params.trans h.params

/-! ### One rule per update of a state -/

theorem setPc (h : WritesOnly d s t) (w : Word) : WritesOnly d s (t.setPc w) := { h with }

theorem setCyc (h : WritesOnly d s t) (n : Nat) : WritesOnly d s (t.setCyc n) := { h with }

theorem store (h : WritesOnly d s t) (addr : Word) (v : Byte) : WritesOnly d s (t.store addr v) := { h with }

theorem setA (h : WritesOnly d s t) (hd : writesA d = true) (v : Byte) : WritesOnly d s (t.setA v) :=
  { h with a := fun hn => nomatch hd.symm.trans hn }

theorem setX (h : WritesOnly d s t) (hd : writesX d = true) (v : Byte) : WritesOnly d s (t.setX v) :=
  { h with x := fun hn => nomatch hd.symm.trans hn }

theorem setY (h : WritesOnly d s t) (hd : writesY d = true) (v : Byte) : WritesOnly d s (t.setY v) :=
  { h with y := fun hn => nomatch hd.symm.trans hn }

theorem setSp (h : WritesOnly d s t) (hd : writesSp d = true) (v : Byte) : WritesOnly d s (t.setSp v) :=
  { h with sp := fun hn => nomatch hd.symm.trans hn }

theorem setP (h : WritesOnly d s t) {fs : List Flag} {p : Byte} (hd : writesFlags d fs = true)
    (hp : KeepsFlagsExcept t.p p fs) : WritesOnly d s (t.setP p) :=
  { h with flag := fun f hf => (hp f fun hm => hf (mem_writers_of_writesFlags hd hm)).trans (h.flag f hf) }

/-! ### The operations the meanings share -/

theorem setANZ (h : WritesOnly d s t) (ha : writesA d = true) (hf : writesFlags d [.n, .z] = true) (v : Byte) :
    WritesOnly d s (t.setANZ v) :=
  (h.setA ha v).setP hf (setNZ_keepsFlagsExcept _ v)

theorem setXNZ (h : WritesOnly d s t) (hx : writesX d = true) (hf : writesFlags d [.n, .z] = true) (v : Byte) :
    WritesOnly d s (t.setXNZ v) :=
  (h.setX hx v).setP hf (setNZ_keepsFlagsExcept _ v)

theorem setYNZ (h : WritesOnly d s t) (hy : writesY d = true) (hf : writesFlags d [.n, .z] = true) (v : Byte) :
    WritesOnly d s (t.setYNZ v) :=
  (h.setY hy v).setP hf (setNZ_keepsFlagsExcept _ v)

theorem setAlu (h : WritesOnly d s t) (ha : writesA d = true) (hf : writesFlags d [.n, .v, .z, .c] = true)
    (r : AluResult) : WritesOnly d s (t.setAlu r) :=
  (h.setP hf (setNVZC_keepsFlagsExcept _ r)).setA ha r.value

theorem comparing (h : WritesOnly d s t) (hf : writesFlags d [.n, .z, .c] = true) (register : State → Byte)
    (v : Byte) : WritesOnly d s (comparing register v t) :=
  h.setP hf (setNZC_keepsFlagsExcept _ _ _)

theorem writing (h : WritesOnly d s t) {f : Flag} (hf : writesFlags d [f] = true) (b : Bool) :
    WritesOnly d s (writing f b t) :=
  h.setP hf (setFlag_keepsFlagsExcept _ f b)

theorem push (h : WritesOnly d s t) (hd : writesSp d = true) (v : Byte) : WritesOnly d s (push v t) :=
  (h.store _ v).setSp hd _

theorem pushWord (h : WritesOnly d s t) (hd : writesSp d = true) (w : Word) : WritesOnly d s (pushWord w t) :=
  (h.push hd _).push hd _

theorem pop (h : WritesOnly d s t) (hd : writesSp d = true) : WritesOnly d s (pop t).2 := h.setSp hd _

theorem popWord (h : WritesOnly d s t) (hd : writesSp d = true) : WritesOnly d s (popWord t).2 :=
  (h.pop hd).pop hd

theorem pullFlags (h : WritesOnly d s t) (hd : writesSp d = true)
    (hf : writesFlags d [.n, .v, .u, .b, .d, .i, .z, .c] = true) : WritesOnly d s (pullFlags t) :=
  (h.pop hd).setP hf (keepsFlagsExcept_all _ _)

theorem enterTrap (h : WritesOnly d s t) (hd : writesSp d = true) (hb : writesFlags d [.b] = true)
    (hi : writesFlags d [.i] = true) (ret vector : Word) : WritesOnly d s (enterTrap ret vector t) :=
  ((((h.pushWord hd ret).writing hb true).push hd _).writing hi true).setPc _

theorem returnFromTrap (h : WritesOnly d s t) (hd : writesSp d = true)
    (hf : writesFlags d [.n, .v, .u, .b, .d, .i, .z, .c] = true) : WritesOnly d s (returnFromTrap t) :=
  ((h.pullFlags hd hf).popWord hd).setPc _

end WritesOnly

/-! ## The handlers -/

/-- On a decoded instruction, the handler writes only what the instruction's row is a listed writer of. -/
def Handler.WritesOnly (h : Handler) (d : Decoded) : Prop :=
  ∀ s s2 extra, h d s = some (s2, extra) → Machine.WritesOnly d.toDescriptor s s2

section Shapes
variable {d : Decoded}

theorem implied_writesOnly {f : State → State} (hf : ∀ s, WritesOnly d.toDescriptor s (f s)) :
    (implied f).WritesOnly d := by
  intro s s2 extra h
  obtain ⟨rfl, -⟩ := Prod.mk.inj (Option.some.inj h)
  exact hf s

theorem reading_writesOnly {f : Byte → State → State} (hf : ∀ v s, WritesOnly d.toDescriptor s (f v s)) :
    (reading f).WritesOnly d := by
  intro s s2 extra h
  obtain ⟨v, -, rfl, -⟩ := reading_some h
  exact hf v s

theorem storing_writesOnly (f : State → Byte) : (storing f).WritesOnly d := by
  intro s s2 extra h
  obtain ⟨ea, -, rfl, -⟩ := storing_some h
  exact (WritesOnly.refl _ s).store ea _

theorem jumping_writesOnly {f : State → State} (hf : ∀ s, WritesOnly d.toDescriptor s (f s)) :
    (jumping f).WritesOnly d := by
  intro s s2 extra h
  obtain ⟨ea, -, rfl, -⟩ := jumping_some h
  exact (hf s).setPc ea

theorem jumpingByValue_some {s s2 : State} {extra : Nat} (h : jumpingByValue d s = some (s2, extra)) :
    ∃ w, decodedValue d s = .word w ∧ s2 = s.setPc w ∧ extra = 0 := by
  simp only [jumpingByValue] at h
  split at h
  · rename_i w hw
    obtain ⟨rfl, rfl⟩ := Prod.mk.inj (Option.some.inj h)
    exact ⟨w, hw, rfl, rfl⟩
  · cases h
  · cases h

theorem jumpingByValue_writesOnly : jumpingByValue.WritesOnly d := by
  intro s s2 extra h
  obtain ⟨w, -, rfl, -⟩ := jumpingByValue_some h
  exact (WritesOnly.refl _ s).setPc w

/-- A branch goes to its target, or leaves the state as it is (43_branch_brk.md R190). -/
theorem branching_some {f : Flag} {value : Bool} {s s2 : State} {extra : Nat}
    (h : branching f value d s = some (s2, extra)) :
    (s.flag f = value ∧ s2 = s.setPc (branchTarget s.pc (loByte d.operand)) ∧
        extra = branchCycles s.pc (branchTarget s.pc (loByte d.operand))) ∨
      (s.flag f ≠ value ∧ s2 = s ∧ extra = 0) := by
  have h := Option.some.inj h
  split at h
  · obtain ⟨rfl, rfl⟩ := Prod.mk.inj h
    exact .inl ⟨‹_›, rfl, rfl⟩
  · obtain ⟨rfl, rfl⟩ := Prod.mk.inj h
    exact .inr ⟨‹_›, rfl, rfl⟩

theorem branching_writesOnly (f : Flag) (value : Bool) : (branching f value).WritesOnly d := by
  intro s s2 extra h
  obtain ⟨-, rfl, -⟩ | ⟨-, rfl, -⟩ := branching_some h
  · exact (WritesOnly.refl _ s).setPc _
  · exact WritesOnly.refl _ _

/-- A read-modify-write writes A in Accumulator mode alone, and the flags its computation writes
(30_encoding.md R109). -/
theorem modifying_writesOnly {f : Byte → Byte → Byte × Byte} {fs : List Flag}
    (ha : d.mode = .accumulator → writesA d.toDescriptor = true) (hd : writesFlags d.toDescriptor fs = true)
    (hf : ∀ v p, KeepsFlagsExcept p (f v p).2 fs) : (modifying f).WritesOnly d := by
  intro s s2 extra h
  obtain ⟨v, s1, -, hst, rfl, -⟩ := modifying_some h
  obtain ⟨hacc, rfl⟩ | ⟨ea, -, -, rfl⟩ := storeResult_some hst
  · exact ((WritesOnly.refl _ s).setA (ha hacc) _).setP hd (hf v s.p)
  · exact ((WritesOnly.refl _ s).store ea _).setP hd (hf v s.p)

end Shapes

/-- A shift writes N, Z and C (42_shift.md R170 to R174). -/
theorem shifting_keepsFlagsExcept (f : Byte → Bool → Byte × Bool) (v p : Byte) :
    KeepsFlagsExcept p (shifting f v p).2 [.n, .z, .c] :=
  setNZC_keepsFlagsExcept p _ _

theorem decrement_keepsFlagsExcept (v p : Byte) : KeepsFlagsExcept p (decrement v p).2 [.n, .z] :=
  setNZ_keepsFlagsExcept p _

theorem increment_keepsFlagsExcept (v p : Byte) : KeepsFlagsExcept p (increment v p).2 [.n, .z] :=
  setNZ_keepsFlagsExcept p _

/-- The handler of a mnemonic writes only what the mnemonic is a listed writer of, in every mode but Accumulator, and
there if the row may write A. -/
theorem handlerOf_writesOnly (d : Decoded) (ha : d.mode = .accumulator → writesA d.toDescriptor = true) :
    (handlerOf d.mnemonic d.mode).WritesOnly d := by
  obtain ⟨⟨opcode, m, mode, length, baseCycles, pageClass⟩, address, operand⟩ := d
  cases m with
  | adc | sbc => exact reading_writesOnly fun _ s => (WritesOnly.refl _ s).setAlu rfl rfl _
  | and | ora | eor | lda => exact reading_writesOnly fun _ s => (WritesOnly.refl _ s).setANZ rfl rfl _
  | ldx => exact reading_writesOnly fun _ s => (WritesOnly.refl _ s).setXNZ rfl rfl _
  | ldy => exact reading_writesOnly fun _ s => (WritesOnly.refl _ s).setYNZ rfl rfl _
  | bit => exact reading_writesOnly fun v s => (WritesOnly.refl _ s).setP rfl (bitFlags_keepsFlagsExcept _ v _)
  | cmp | cpx | cpy => exact reading_writesOnly fun v s => (WritesOnly.refl _ s).comparing rfl _ v
  | asl => exact modifying_writesOnly ha rfl (shifting_keepsFlagsExcept shiftAsl)
  | lsr => exact modifying_writesOnly ha rfl (shifting_keepsFlagsExcept shiftLsr)
  | rol => exact modifying_writesOnly ha rfl (shifting_keepsFlagsExcept shiftRol)
  | ror => exact modifying_writesOnly ha rfl (shifting_keepsFlagsExcept shiftRor)
  | dec => exact modifying_writesOnly ha rfl decrement_keepsFlagsExcept
  | inc => exact modifying_writesOnly ha rfl increment_keepsFlagsExcept
  | sta | stx | sty => exact storing_writesOnly _
  | bpl | bmi | bvc | bvs | bcc | bcs | bne | beq => exact branching_writesOnly _ _
  | jmp =>
    by_cases hm : mode = .indirect
    · simpa [handlerOf, hm] using jumpingByValue_writesOnly
    · simpa [handlerOf, hm] using jumping_writesOnly fun s => WritesOnly.refl _ s
  | jsr => exact jumping_writesOnly fun s => (WritesOnly.refl _ s).pushWord rfl _
  | rts => exact implied_writesOnly fun s => ((WritesOnly.refl _ s).popWord rfl).setPc _
  | rti => exact implied_writesOnly fun s => (WritesOnly.refl _ s).returnFromTrap rfl rfl
  | brk => exact implied_writesOnly fun s => (WritesOnly.refl _ s).enterTrap rfl rfl rfl _ _
  | pha | php => exact implied_writesOnly fun s => (WritesOnly.refl _ s).push rfl _
  | pla => exact implied_writesOnly fun s => ((WritesOnly.refl _ s).pop rfl).setANZ rfl rfl _
  | plp => exact implied_writesOnly fun s => (WritesOnly.refl _ s).pullFlags rfl rfl
  | txa | tya => exact implied_writesOnly fun s => (WritesOnly.refl _ s).setANZ rfl rfl _
  | tax | tsx | dex | inx => exact implied_writesOnly fun s => (WritesOnly.refl _ s).setXNZ rfl rfl _
  | tay | dey | iny => exact implied_writesOnly fun s => (WritesOnly.refl _ s).setYNZ rfl rfl _
  | txs => exact implied_writesOnly fun s => (WritesOnly.refl _ s).setSp rfl _
  | sec | clc | sed | cld | sei | cli | clv => exact implied_writesOnly fun s => (WritesOnly.refl _ s).writing rfl _
  | nop | unimplemented => exact implied_writesOnly (WritesOnly.refl _)

/-! ## Instructions and steps -/

/-- An instruction that has a next state, the stub under NoOp among them, got it from the common part of a step around
its mnemonic's handler (30_encoding.md R112; 48_flags_nop.md R318). -/
theorem execute_handlerOf_of_exec_next {i : Instr} {s t : State} (h : exec i s = .next t) :
    execute i (handlerOf i.descriptor.mnemonic i.descriptor.mode) s = .next t := by
  by_cases hm : i.descriptor.mnemonic = .unimplemented
  · obtain ⟨opcode, rfl⟩ := eq_unimplemented hm
    cases hp : s.params.unimplPolicy with
    | fault => rw [exec_stub_fault opcode s hp] at h; cases h
    | noOp => exact (exec_stub_noOp opcode s hp).symm.trans h
  · exact (exec_eq_execute i s hm).symm.trans h

/-- The rows in Accumulator mode are those of the shifts, which may write A there (10_state.md R21). -/
theorem writesA_of_accumulator {i : Instr} (h : i.descriptor.mode = .accumulator) : writesA i.descriptor = true := by
  cases i
  case aslAccumulator | lsrAccumulator | rolAccumulator | rorAccumulator => rfl
  all_goals cases h

/-- An instruction changes only what its row is a listed writer of (10_state.md R21 to R25). -/
theorem exec_writesOnly {i : Instr} {s t : State} (h : exec i s = .next t) : WritesOnly i.descriptor s t := by
  obtain ⟨s2, extra, hd, rfl⟩ := (execute_next_iff _ _ _ _).1 (execute_handlerOf_of_exec_next h)
  have hadvance := (WritesOnly.refl i.descriptor s).setPc (pastInstr i s)
  have hhandler := handlerOf_writesOnly (i.decodedAt s.pc) writesA_of_accumulator _ s2 extra hd
  exact (hadvance.trans hhandler).setCyc _

/-- A step that has a next state is some instruction's. -/
theorem exec_of_step_next {s t : State} (h : step s = .next t) : ∃ i, exec i s = .next t := by
  unfold step at h
  split at h
  · exact ⟨_, h⟩
  · cases h

/-- Settles O12: the step is some instruction's, and no instruction may write a parameter. -/
theorem stepKeepsParams : Obligations.StepKeepsParams := by
  intro s t h
  obtain ⟨i, hi⟩ := exec_of_step_next h
  exact (exec_writesOnly hi).params

/-- Settles O52, from the flags that a row may write. -/
theorem flagsChangeOnlyByWriters : Obligations.FlagsChangeOnlyByWriters :=
  fun _ _ _ f h hf => (exec_writesOnly h).flag f hf

/-- Settles O53, from the registers that a row may write. -/
theorem registersChangeOnlyByWriters : Obligations.RegistersChangeOnlyByWriters := fun _ _ _ h =>
  have hw := exec_writesOnly h
  ⟨hw.a, hw.x, hw.y, hw.sp⟩

/-! ## The host's operations -/

@[simp] theorem hostReset_cyc (s : State) : (hostReset s).cyc = s.cyc := rfl
@[simp] theorem hostReset_params (s : State) : (hostReset s).params = s.params := rfl

/-- Settles O58: each operation but the step is an update of a state that keeps CYC and the parameters. -/
theorem hostNeverWritesCycles : Obligations.HostNeverWritesCycles := by
  intro act s hact
  cases act with
  | step => exact absurd rfl hact
  | reset => exact ⟨_, rfl, hostReset_cyc s, hostReset_params s⟩
  | writeA v => exact ⟨_, rfl, s.setA_cyc v, s.setA_params v⟩
  | writeX v => exact ⟨_, rfl, s.setX_cyc v, s.setX_params v⟩
  | writeY v => exact ⟨_, rfl, s.setY_cyc v, s.setY_params v⟩
  | writeSp v => exact ⟨_, rfl, s.setSp_cyc v, s.setSp_params v⟩
  | writePc v => exact ⟨_, rfl, s.setPc_cyc v, s.setPc_params v⟩
  | writeP v => exact ⟨_, rfl, s.setP_cyc v, s.setP_params v⟩
  | writeFlag f v => exact ⟨_, rfl, s.setP_cyc _, s.setP_params _⟩
  | writeMem addr v => exact ⟨_, rfl, s.store_cyc addr v, s.store_params addr v⟩

end Sys2Proof.Machine
end

section
/-! PROOFS. Memory and the stack (20_memory.md R60 to R73). The memory after an instruction comes from the memory before
it by writes at permitted addresses alone, `Memory.WrittenAt`. That relation gives both the canonical form and the
frame; the case split over the mnemonics is made once, in `handlerOf_storesOnly`. A fetch is read off the table of
slots, `slot_instr_row`. -/

namespace Sys2Proof.Machine

/-! ## Memory after some writes -/

namespace Memory

/-- The second memory comes from the first by `MemWrite`s at addresses with the property (20_memory.md R60). -/
inductive WrittenAt (P : Word → Prop) (m : Memory) : Memory → Prop
  | refl : WrittenAt P m m
  | write {m' : Memory} (h : WrittenAt P m m') {a : Word} (ha : P a) (v : Byte) : WrittenAt P m (m'.write a v)

namespace WrittenAt
variable {P : Word → Prop} {m : Memory}

theorem wf {m' : Memory} (h : WrittenAt P m m') (hm : m.wf = true) : m'.wf = true := by
  induction h with
  | refl => exact hm
  | write _ _ v ih => exact write_wf _ _ v ih

/-- A byte at an address without the property is as it was (20_memory.md R61). -/
theorem read_eq {m' : Memory} (h : WrittenAt P m m') {b : Word} (hb : ¬ P b) : m'.read b = m.read b := by
  induction h with
  | refl => rfl
  | write _ ha v ih =>
    refine (read_write_of_ne _ v ?_).trans ih
    rintro rfl
    exact hb ha

/-! ### The stack primitives write on the stack page -/

variable {s : State}

theorem push (h : WrittenAt P m s.mem) (hP : ∀ sp, P (stackAddress sp)) (v : Byte) :
    WrittenAt P m (push v s).mem := h.write (hP _) v

theorem pushWord (h : WrittenAt P m s.mem) (hP : ∀ sp, P (stackAddress sp)) (w : Word) :
    WrittenAt P m (pushWord w s).mem := (h.push hP _).push hP _

theorem enterTrap (h : WrittenAt P m s.mem) (hP : ∀ sp, P (stackAddress sp)) (ret vector : Word) :
    WrittenAt P m (enterTrap ret vector s).mem := by
  rw [enterTrap_mem]
  exact ((h.write (hP _) _).write (hP _) _).write (hP _) _

end WrittenAt

/-! ## The canonical form of a memory (log 7) -/

theorem canonicalFrom_cons {bound key : Nat} {v : Byte} {rest : Memory} :
    canonicalFrom bound ((key, v) :: rest) = true ↔
      bound ≤ key ∧ key < 65536 ∧ v ≠ unlisted ∧ canonicalFrom (key + 1) rest = true := by
  simp [canonicalFrom, and_assoc]

@[simp] theorem lookup_cons_same (key : Nat) (v : Byte) (rest : Memory) : lookup ((key, v) :: rest) key = v :=
  if_pos rfl

theorem lookup_cons_of_ne {key k : Nat} (v : Byte) (rest : Memory) (h : key ≠ k) :
    lookup ((key, v) :: rest) k = lookup rest k :=
  if_neg h

/-- An address with a byte to list is not below the list's bound. -/
theorem bound_le_of_lookup_ne {m : Memory} {bound k : Nat} (hm : canonicalFrom bound m = true)
    (hk : lookup m k ≠ unlisted) : bound ≤ k := by
  induction m generalizing bound with
  | nil => exact absurd rfl hk
  | cons cell rest ih =>
    obtain ⟨key, v⟩ := cell
    obtain ⟨hbound, -, -, hrest⟩ := canonicalFrom_cons.1 hm
    by_cases hkey : key = k
    · exact hkey ▸ hbound
    · rw [lookup_cons_of_ne v rest hkey] at hk
      have := ih hrest hk
      omega

/-- The head's address is the least one with a byte to list. -/
theorem head_key_le {key k : Nat} {v : Byte} {rest : Memory} {bound : Nat}
    (hm : canonicalFrom bound ((key, v) :: rest) = true) (hk : lookup ((key, v) :: rest) k ≠ unlisted) :
    key ≤ k := by
  obtain ⟨-, hlt, hv, hrest⟩ := canonicalFrom_cons.1 hm
  exact bound_le_of_lookup_ne (canonicalFrom_cons.2 ⟨le_rfl, hlt, hv, hrest⟩) hk

/-- A canonical tail lists nothing at its head's address. -/
theorem lookup_tail_head {key : Nat} {rest : Memory} (h : canonicalFrom (key + 1) rest = true) :
    lookup rest key = unlisted := by
  by_contra hne
  exact absurd (bound_le_of_lookup_ne h hne) (by omega)

theorem canonicalFrom_ext {m m' : Memory} {bound bound' : Nat} (hm : canonicalFrom bound m = true)
    (hm' : canonicalFrom bound' m' = true) (h : ∀ k, lookup m k = lookup m' k) : m = m' := by
  induction m generalizing m' bound bound' with
  | nil =>
    cases m' with
    | nil => rfl
    | cons cell' rest' =>
      obtain ⟨key', v'⟩ := cell'
      obtain ⟨-, -, hv', -⟩ := canonicalFrom_cons.1 hm'
      exact absurd ((lookup_cons_same key' v' rest').symm.trans (h key').symm) hv'
  | cons cell rest ih =>
    obtain ⟨key, v⟩ := cell
    obtain ⟨-, -, hv, hrest⟩ := canonicalFrom_cons.1 hm
    cases m' with
    | nil => exact absurd ((lookup_cons_same key v rest).symm.trans (h key)) hv
    | cons cell' rest' =>
      obtain ⟨key', v'⟩ := cell'
      obtain ⟨-, -, hv', hrest'⟩ := canonicalFrom_cons.1 hm'
      have hle : key ≤ key' := head_key_le hm (by rwa [h, lookup_cons_same])
      have hge : key' ≤ key := head_key_le hm' (by rwa [← h, lookup_cons_same])
      obtain rfl : key = key' := le_antisymm hle hge
      have hvv : v = v' := by simpa using h key
      have htail : ∀ k, lookup rest k = lookup rest' k := fun k => by
        by_cases hk : key = k
        · rw [← hk, lookup_tail_head hrest, lookup_tail_head hrest']
        · rw [← lookup_cons_of_ne v rest hk, h k, lookup_cons_of_ne v' rest' hk]
      rw [hvv, ih hrest hrest' htail]

/-- Nothing is listed outside the 65536 addresses (20_memory.md R60). -/
theorem lookup_of_ge {m : Memory} {bound k : Nat} (hm : canonicalFrom bound m = true) (hk : 65536 ≤ k) :
    lookup m k = unlisted := by
  induction m generalizing bound with
  | nil => rfl
  | cons cell rest ih =>
    obtain ⟨key, v⟩ := cell
    obtain ⟨-, hlt, -, hrest⟩ := canonicalFrom_cons.1 hm
    rw [lookup_cons_of_ne v rest (by omega), ih hrest]

theorem lookup_eq_read (m : Memory) {k : Nat} (hk : k < 65536) : lookup m k = m.read (BitVec.ofNat 16 k) := by
  rw [read, BitVec.toNat_ofNat, Nat.mod_eq_of_lt hk]

end Memory

/-! ## What the handlers may store to -/

/-- The addresses a decoded instruction may store to from the state its handler starts from: its effective address
where its row stores there, the stack page where its row pushes (20_memory.md R66, R71; 30_encoding.md R109). -/
def MayStore (d : Decoded) (s : State) (a : Word) : Prop :=
  storesAtOperand d.toDescriptor = true ∧ effectiveAddress d s = some a ∨
    pushes d.toDescriptor = true ∧ hiByte a = 0x01#8

theorem mayStore_stackAddress {d : Decoded} (h : pushes d.toDescriptor = true) (s : State) (sp : Byte) :
    MayStore d s (stackAddress sp) := .inr ⟨h, hiByte_stackAddress sp⟩

/-- A row of a read-modify-write stores at its operand in every mode but Accumulator (30_encoding.md R109). -/
theorem storesAtOperand_of_modifies {d : Descriptor} (h : d.mnemonic ∈ [.asl, .lsr, .rol, .ror, .inc, .dec])
    (hm : d.mode ≠ .accumulator) : storesAtOperand d = true := by
  simp only [List.mem_cons, List.not_mem_nil, or_false] at h
  obtain h | h | h | h | h | h := h <;> simp [storesAtOperand, h, hm]

/-- On a decoded instruction, the handler stores only where the instruction may. -/
def Handler.StoresOnly (h : Handler) (d : Decoded) : Prop :=
  ∀ s s2 extra, h d s = some (s2, extra) → Memory.WrittenAt (MayStore d s) s.mem s2.mem

section Shapes
variable {d : Decoded}

theorem implied_storesOnly {f : State → State} (hf : ∀ s, Memory.WrittenAt (MayStore d s) s.mem (f s).mem) :
    (implied f).StoresOnly d := by
  intro s s2 extra h
  obtain ⟨rfl, -⟩ := Prod.mk.inj (Option.some.inj h)
  exact hf s

theorem implied_storesOnly_of_mem_eq {f : State → State} (hf : ∀ s, (f s).mem = s.mem) : (implied f).StoresOnly d :=
  implied_storesOnly fun s => (hf s).symm ▸ .refl

theorem reading_storesOnly {f : Byte → State → State} (hf : ∀ v s, (f v s).mem = s.mem) :
    (reading f).StoresOnly d := by
  intro s s2 extra h
  obtain ⟨v, -, rfl, -⟩ := reading_some h
  exact (hf v s).symm ▸ .refl

theorem storing_storesOnly (hd : storesAtOperand d.toDescriptor = true) (f : State → Byte) :
    (storing f).StoresOnly d := by
  intro s s2 extra h
  obtain ⟨ea, hea, rfl, -⟩ := storing_some h
  exact .write .refl (.inl ⟨hd, hea⟩) _

theorem jumping_storesOnly {f : State → State} (hf : ∀ s, Memory.WrittenAt (MayStore d s) s.mem (f s).mem) :
    (jumping f).StoresOnly d := by
  intro s s2 extra h
  obtain ⟨ea, -, rfl, -⟩ := jumping_some h
  exact hf s

theorem jumpingByValue_storesOnly : jumpingByValue.StoresOnly d := by
  intro s s2 extra h
  obtain ⟨w, -, rfl, -⟩ := jumpingByValue_some h
  exact .refl

theorem branching_storesOnly (f : Flag) (value : Bool) : (branching f value).StoresOnly d := by
  intro s s2 extra h
  obtain ⟨-, rfl, -⟩ | ⟨-, rfl, -⟩ := branching_some h <;> exact .refl

/-- A read-modify-write writes back to A or to its effective address (30_encoding.md R109). -/
theorem modifying_storesOnly (f : Byte → Byte → Byte × Byte)
    (hd : d.mnemonic ∈ [.asl, .lsr, .rol, .ror, .inc, .dec]) : (modifying f).StoresOnly d := by
  intro s s2 extra h
  obtain ⟨v, s1, -, hst, rfl, -⟩ := modifying_some h
  obtain ⟨-, rfl⟩ | ⟨ea, hea, hmode, rfl⟩ := storeResult_some hst
  · exact .refl
  · exact .write .refl (.inl ⟨storesAtOperand_of_modifies hd hmode, hea⟩) _

end Shapes

/-- The handler of a mnemonic stores only where a row of the mnemonic may, in every mode. -/
theorem handlerOf_storesOnly (d : Decoded) : (handlerOf d.mnemonic d.mode).StoresOnly d := by
  obtain ⟨⟨opcode, m, mode, length, baseCycles, pageClass⟩, address, operand⟩ := d
  cases m with
  | adc | sbc | and | ora | eor | bit | cmp | cpx | cpy | lda | ldx | ldy => exact reading_storesOnly fun _ _ => rfl
  | asl => exact modifying_storesOnly (shifting shiftAsl) (by simp)
  | lsr => exact modifying_storesOnly (shifting shiftLsr) (by simp)
  | rol => exact modifying_storesOnly (shifting shiftRol) (by simp)
  | ror => exact modifying_storesOnly (shifting shiftRor) (by simp)
  | dec => exact modifying_storesOnly decrement (by simp)
  | inc => exact modifying_storesOnly increment (by simp)
  | sta | stx | sty => exact storing_storesOnly rfl _
  | bpl | bmi | bvc | bvs | bcc | bcs | bne | beq => exact branching_storesOnly _ _
  | jmp =>
    by_cases hm : mode = .indirect
    · simpa [handlerOf, hm] using jumpingByValue_storesOnly
    · simpa [handlerOf, hm] using jumping_storesOnly fun _ => .refl
  | jsr => exact jumping_storesOnly fun s => .pushWord .refl (mayStore_stackAddress rfl s) _
  | brk => exact implied_storesOnly fun s => .enterTrap .refl (mayStore_stackAddress rfl s) _ _
  | pha | php => exact implied_storesOnly fun s => .push .refl (mayStore_stackAddress rfl s) _
  | pla | plp | rts | rti | tax | txa | tay | tya | tsx | txs | dex | dey | inx | iny
  | sec | clc | sed | cld | sei | cli | clv | nop | unimplemented => exact implied_storesOnly_of_mem_eq fun _ => rfl

/-- An instruction stores only where its row may, the effective address resolved from the advanced PC
(20_memory.md R71, R72; 30_encoding.md R112). -/
theorem exec_storesOnly {i : Instr} {s t : State} (h : exec i s = .next t) :
    Memory.WrittenAt (MayStore (i.decodedAt s.pc) (advanced i s)) s.mem t.mem := by
  obtain ⟨s2, extra, hd, rfl⟩ := (execute_next_iff _ _ _ _).1 (execute_handlerOf_of_exec_next h)
  exact handlerOf_storesOnly (i.decodedAt s.pc) _ s2 extra hd

/-- Settles O10: the step is some instruction's, which writes memory by `MemWrite` alone. -/
theorem stepKeepsMemoryCanonical : Obligations.StepKeepsMemoryCanonical := by
  intro s t hs h
  obtain ⟨i, hi⟩ := exec_of_step_next h
  exact (exec_storesOnly hi).wf hs

/-- Settles O54: an address the instruction may not store to reads as before. -/
theorem memoryChangesOnlyWhereStored : Obligations.MemoryChangesOnlyWhereStored := by
  intro i s t a h hne
  by_contra hP
  exact hne ((exec_storesOnly h).read_eq hP)

/-- Settles O9: equal bytes at the 65536 addresses are equal lookups at every number, which make the lists equal cell
by cell. -/
theorem canonicalMemoryIsUnique : Obligations.CanonicalMemoryIsUnique := by
  intro m m' hm hm' h
  refine Memory.canonicalFrom_ext hm hm' fun k => ?_
  by_cases hk : k < 65536
  · rw [Memory.lookup_eq_read m hk, Memory.lookup_eq_read m' hk, h]
  · rw [Memory.lookup_of_ge hm (by omega), Memory.lookup_of_ge hm' (by omega)]

/-! ## A store and the load after it -/

theorem exec_sta_mem {i : Instr} {s t : State} {ea : Word} (hi : i.descriptor.mnemonic = .sta)
    (hea : operandAddress i s = some ea) (h : exec i s = .next t) : t.mem = s.mem.write ea s.a := by
  have ht := execute_handlerOf_of_exec_next h
  rw [hi] at ht
  obtain rfl := Host.Outcome.next.inj ((execute_storing State.a hea).symm.trans ht)
  rfl

/-- Where a decoded instruction has both a value of one byte and an effective address, the value is the byte there
(30_encoding.md R108). -/
theorem decodedValue_eq_read {d : Decoded} {s : State} {v : Byte} {ea : Word} (hv : decodedValue d s = .byte v)
    (hea : effectiveAddress d s = some ea) : v = s.mem.read ea := by
  unfold decodedValue at hv
  split at hv
  case h_1 _ _ hm | h_2 _ _ hm | h_3 _ _ hm => simp [effectiveAddress, hm] at hea
  case h_4 | h_6 => cases hv
  case h_5 _ _ ea' hea' _ _ _ _ =>
    cases hea'.symm.trans hea
    exact (OperandValue.byte.inj hv).symm

theorem operandByte_eq_read {i : Instr} {s : State} {v : Byte} {ea : Word} (hv : operandByte i s = some v)
    (hea : operandAddress i s = some ea) : v = s.mem.read ea :=
  decodedValue_eq_read (decodedValue_of_operandByte hv) hea

theorem exec_lda_next {j : Instr} {s : State} {ea : Word} (hj : j.descriptor.mnemonic = .lda)
    (hea : operandAddress j s = some ea) : ∃ u, exec j s = .next u ∧ u.a = s.mem.read ea := by
  obtain ⟨v, hv⟩ := operandByte_of_readsByte (i := j) s (by rw [hj]; rfl)
  rw [exec_eq_execute j s (by rw [hj]; decide), hj, ← operandByte_eq_read hv hea]
  exact ⟨_, execute_reading loadA hv, rfl⟩

/-- Settles O8: the memory after STA is one write, which LDA reads. -/
theorem storeThenLoadReturnsByte : Obligations.StoreThenLoadReturnsByte := by
  intro i j s t ea hi hj hsta h hlda
  have hmem := exec_sta_mem hi hsta h
  obtain ⟨u, hu, hua⟩ := exec_lda_next hj hlda
  refine ⟨⟨u, hu, ?_⟩, fun b hb => ?_⟩
  · rw [hua, hmem, Memory.read_write_same]
  · rw [hmem, Memory.read_write_of_ne s.mem s.a hb]

/-! ## The two bytes of a word (00_scope.md R8) -/

@[simp] theorem wordOf_hiByte_loByte (w : Word) : wordOf (hiByte w) (loByte w) = w :=
  (BitVec.extractLsb'_append_extractLsb'_eq_extractLsb' rfl).trans BitVec.extractLsb'_eq_self

@[simp] theorem loByte_wordOf (hi lo : Byte) : loByte (wordOf hi lo) = lo := BitVec.extractLsb'_append_eq_right

@[simp] theorem hiByte_wordOf (hi lo : Byte) : hiByte (wordOf hi lo) = hi := BitVec.extractLsb'_append_eq_left

/-- Widening a byte puts it under a zero high byte. -/
theorem zext16_eq_wordOf (v : Byte) : zext16 v = wordOf 0#8 v := BitVec.setWidth_eq_append (by decide)

@[simp] theorem loByte_zext16 (v : Byte) : loByte (zext16 v) = v := by
  rw [zext16_eq_wordOf, loByte_wordOf]

/-! ## The stack -/

@[simp] theorem setSp_setSp (s : State) (v w : Byte) : (s.setSp v).setSp w = s.setSp w := rfl

theorem pop_push (v : Byte) (s : State) : pop (push v s) = (v, (push v s).setSp s.sp) := by
  simp [pop_eq]

theorem popWord_pushWord (w : Word) (s : State) :
    popWord (pushWord w s) = (w, (pushWord w s).setSp s.sp) := by
  have hbelow : stackAddress s.sp ≠ stackAddress (s.sp - 1#8) := by
    rw [ne_eq, stackAddress_inj]
    bv_omega
  rw [popWord_eq]
  simp [pushWord_eq, Memory.read_write_of_ne _ _ hbelow]

/-- Settles O46: a pop reads where the push wrote, and a push writes on the stack page alone. -/
theorem stackRoundTrip : Obligations.StackRoundTrip := by
  intro v w s
  rw [pop_push, popWord_pushWord]
  refine ⟨rfl, rfl, rfl, rfl, fun a ha => ?_⟩
  have hwritten : Memory.WrittenAt (fun b => hiByte b = 0x01#8) s.mem (pushWord w (push v s)).mem :=
    (Memory.WrittenAt.refl.push hiByte_stackAddress v).pushWord hiByte_stackAddress w
  exact hwritten.read_eq ha

/-- Bytes pushed one after another, the first byte first (20_memory.md R66). -/
def pushAll (bytes : List Byte) (s : State) : State := bytes.foldl (fun u v => push v u) s

@[simp] theorem pushAll_nil (s : State) : pushAll [] s = s := rfl

@[simp] theorem pushAll_cons (v : Byte) (bytes : List Byte) (s : State) :
    pushAll (v :: bytes) s = pushAll bytes (push v s) := rfl

theorem pushAll_sp (bytes : List Byte) (s : State) : (pushAll bytes s).sp = s.sp - BitVec.ofNat 8 bytes.length := by
  induction bytes generalizing s with
  | nil => simp
  | cons v bytes ih =>
    rw [pushAll_cons, ih, push_sp, List.length_cons]
    bv_omega

/-- A stack byte that none of the pushes reaches is as it was. -/
theorem pushAll_read_of_ne (bytes : List Byte) (s : State) (sp : Byte)
    (h : ∀ k < bytes.length, sp ≠ s.sp - BitVec.ofNat 8 k) :
    (pushAll bytes s).mem.read (stackAddress sp) = s.mem.read (stackAddress sp) := by
  induction bytes generalizing s with
  | nil => rfl
  | cons v bytes ih =>
    have hfirst : sp ≠ s.sp := by simpa using h 0 (by simp)
    rw [pushAll_cons, ih, push_mem, Memory.read_write_of_ne]
    · simpa using hfirst
    · intro k hk
      have := h (k + 1) (by simpa using hk)
      rw [push_sp]
      bv_omega

/-- Up to 256 bytes pushed one after another stand at successive stack addresses downwards, none over another
(20_memory.md R66, R69). -/
theorem pushAll_read (bytes : List Byte) (s : State) (hlen : bytes.length ≤ 256) (k : Nat) (hk : k < bytes.length) :
    (pushAll bytes s).mem.read (stackAddress (s.sp - BitVec.ofNat 8 k)) = bytes[k] := by
  induction bytes generalizing s k with
  | nil => simp at hk
  | cons v bytes ih =>
    rw [List.length_cons] at hlen hk
    rw [pushAll_cons]
    cases k with
    | zero =>
      rw [pushAll_read_of_ne]
      · simp
      · intro j hj
        rw [push_sp]
        bv_omega
    | succ k =>
      have hsp : s.sp - BitVec.ofNat 8 (k + 1) = (push v s).sp - BitVec.ofNat 8 k := by
        rw [push_sp]
        bv_omega
      rw [hsp, ih (push v s) (by omega) k (by omega), List.getElem_cons_succ]

/-- Settles O47: 256 is 0 modulo 256, and 256 pushes leave every pushed byte in place. -/
theorem fullStackWraps : Obligations.FullStackWraps := by
  intro bytes s hlen
  refine ⟨?_, pushAll_read bytes s hlen.le⟩
  have hsp := pushAll_sp bytes s
  rw [hlen] at hsp
  exact hsp.trans (BitVec.sub_zero s.sp)

end Sys2Proof.Machine

/-! ## The bytes of a fetched instruction -/

namespace Sys2Proof

namespace Slot

/-- The instruction a slot makes of the two bytes after its opcode byte (30_encoding.md R110). -/
def instr : Slot → Byte → Byte → Instr
  | .one i, _, _ => i
  | .two mk, b1, _ => mk b1
  | .three mk, b1, b2 => mk (wordOf b2 b1)

/-- The byte length of a slot's format (30_encoding.md R91). -/
def length : Slot → Nat
  | .one _ => 1
  | .two _ => 2
  | .three _ => 3

/-- The raw operand a slot's format takes from the two bytes after the opcode byte (30_encoding.md R91). -/
def operand : Slot → Byte → Byte → Word
  | .one _, _, _ => 0
  | .two _, b1, _ => zext16 b1
  | .three _, b1, b2 => wordOf b2 b1

end Slot

theorem decodeBytes_eq_instr (b0 b1 b2 : Byte) : decodeBytes b0 b1 b2 = (slot b0).instr b1 b2 := by
  unfold decodeBytes
  cases slot b0 <;> rfl

/-- Each slot holds an instruction of its own opcode byte, with the length and the operand of the slot's format
(30_encoding.md R91, R93). -/
theorem slot_instr_row (b0 b1 b2 : Byte) :
    ((slot b0).instr b1 b2).descriptor.opcode = b0 ∧
      ((slot b0).instr b1 b2).descriptor.length = (slot b0).length ∧
      ((slot b0).instr b1 b2).operand = (slot b0).operand b1 b2 := by
  generalize hsl : slot b0 = sl
  unfold slot at hsl
  split at hsl
  case h_152 => exact hsl ▸ ⟨rfl, rfl, rfl⟩
  all_goals exact hsl ▸ ⟨BitVec.eq_of_toNat_eq (Eq.symm ‹_›), rfl, rfl⟩

/-- The encoding of the instruction of three bytes is as many of them as the opcode byte's slot has
(30_encoding.md R90, R91). -/
theorem encode_decodeBytes (b0 b1 b2 : Byte) :
    encode (decodeBytes b0 b1 b2) = [b0, b1, b2].take (slotDescriptor b0).length := by
  obtain ⟨hopcode, hlength, hoperand⟩ := slot_instr_row b0 b1 b2
  obtain ⟨-, hslot, -⟩ := slot_instr_row b0 0 0
  rw [encode, slotDescriptor, decodeBytes_eq_instr, decodeBytes_eq_instr, hopcode, hlength, hoperand, hslot]
  cases slot b0 <;> simp [Slot.length, Slot.operand, operandBytes]

/-- Settles O7: the two addresses after 0xFFFE are 0xFFFF and 0x0000, and three of the three bytes are used. -/
theorem fetchWrapsAtTopOfMemory : Obligations.FetchWrapsAtTopOfMemory := by
  intro m hlen
  have hfetch := encode_decodeBytes (m.read 0xFFFE#16) (m.read 0xFFFF#16) (m.read 0x0000#16)
  rw [hlen] at hfetch
  exact hfetch

end Sys2Proof
end

section
/-! PROOFS. Encoding and decoding (30_encoding.md R90 to R97, R110). The table of slots is gone through once for its
descriptors and the instructions once for theirs. Both round trips then say that an instruction is `decodeBytes` of
three bytes and its encoding as many of them as the first byte alone tells. -/

namespace Sys2Proof
open Machine

/-! ## The slots -/

/-- The descriptor is the slot's, whatever the operand bytes are (30_encoding.md R90). -/
theorem descriptor_decodeBytes (b0 b1 b2 : Byte) : (decodeBytes b0 b1 b2).descriptor = slotDescriptor b0 := by
  rw [slotDescriptor, decodeBytes_eq_instr, decodeBytes_eq_instr]
  generalize hsl : slot b0 = sl
  unfold slot at hsl
  split at hsl
  all_goals exact hsl ▸ rfl

theorem slotDescriptor_opcode (opcode : Byte) : (slotDescriptor opcode).opcode = opcode := by
  rw [slotDescriptor, decodeBytes_eq_instr]
  exact (slot_instr_row opcode 0 0).1

theorem slotDescriptor_length (opcode : Byte) : (slotDescriptor opcode).length = (slot opcode).length := by
  rw [slotDescriptor, decodeBytes_eq_instr]
  exact (slot_instr_row opcode 0 0).2.1

theorem slot_length_bounds (sl : Slot) : 1 ≤ sl.length ∧ sl.length ≤ 3 := by
  cases sl <;> simp [Slot.length]

/-- The slots of the stub are the unfilled ones (30_encoding.md R97). -/
theorem slotDescriptor_mnemonic_eq_unimplemented_iff (opcode : Byte) :
    (slotDescriptor opcode).mnemonic = .unimplemented ↔ opcode ∈ unfilledOpcodes := by
  revert opcode
  decide

/-- An unfilled slot makes the stub of its own byte, whatever bytes follow (30_encoding.md R94, R97). -/
theorem decodeBytes_of_mem_unfilledOpcodes {b0 : Byte} (h : b0 ∈ unfilledOpcodes) (b1 b2 : Byte) :
    decodeBytes b0 b1 b2 = .unimplemented b0 := by
  have hd := descriptor_decodeBytes b0 b1 b2
  have hm := (slotDescriptor_mnemonic_eq_unimplemented_iff b0).2 h
  obtain ⟨opcode, hi⟩ := eq_unimplemented ((congrArg Descriptor.mnemonic hd).trans hm)
  have hop := (congrArg Descriptor.opcode hd).trans (slotDescriptor_opcode b0)
  rw [hi] at hop
  exact hi.trans (congrArg Instr.unimplemented hop)

/-! ## Well-formed instructions are those that three bytes decode to -/

theorem wf_iff (i : Instr) :
    i.wf = true ↔ (i.descriptor.mnemonic = .unimplemented → i.descriptor.opcode ∈ unfilledOpcodes) := by
  cases i
  case unimplemented opcode => simp [Instr.wf, Instr.descriptor, Instr.row]
  all_goals exact ⟨fun _ h => (nomatch h), fun _ => rfl⟩

theorem decodeBytes_wf (b0 b1 b2 : Byte) : (decodeBytes b0 b1 b2).wf = true := by
  rw [wf_iff, descriptor_decodeBytes, slotDescriptor_opcode]
  exact (slotDescriptor_mnemonic_eq_unimplemented_iff b0).1

/-- A well-formed instruction is what its opcode byte and the two bytes of its operand decode to: the operand byte
of a 2-byte instruction is the low byte of its operand. -/
theorem decodeBytes_of_wf {i : Instr} (h : i.wf = true) :
    decodeBytes i.descriptor.opcode (loByte i.operand) (hiByte i.operand) = i := by
  cases i
  case unimplemented opcode => exact decodeBytes_of_mem_unfilledOpcodes ((wf_iff _).1 h rfl) _ _
  all_goals (conv_lhs => whnf) <;> simp [Instr.operand, Instr.row]

/-! ## The decoder on a list -/

/-- The decoder reads the instruction of three bytes from as many of them as its slot's format has
(30_encoding.md R90, R91). -/
theorem decode_take_append (b0 b1 b2 : Byte) (rest : List Byte) :
    decode ([b0, b1, b2].take (slotDescriptor b0).length ++ rest) = .ok (decodeBytes b0 b1 b2, rest) := by
  rw [slotDescriptor_length, decodeBytes_eq_instr]
  cases hsl : slot b0 <;> simp [decode, hsl, Slot.length, Slot.instr]

/-- What the decoder can read: the instruction of three bytes, of which the list starts with as many as the slot's
format has. -/
theorem eq_decodeBytes_of_decode {bytes rest : List Byte} {i : Instr} (h : decode bytes = .ok (i, rest)) :
    ∃ b0 b1 b2, i = decodeBytes b0 b1 b2 ∧ bytes = [b0, b1, b2].take (slotDescriptor b0).length ++ rest := by
  unfold decode at h
  split at h
  case h_1 => cases h
  case h_2 b0 tail =>
    simp only [slotDescriptor_length, decodeBytes_eq_instr]
    split at h
    case h_1 hsl =>
      obtain ⟨rfl, rfl⟩ := Prod.mk.inj (Except.ok.inj h)
      exact ⟨b0, 0, 0, by simp [hsl, Slot.length, Slot.instr]⟩
    case h_2 mk b1 tail hsl =>
      obtain ⟨rfl, rfl⟩ := Prod.mk.inj (Except.ok.inj h)
      exact ⟨b0, b1, 0, by simp [hsl, Slot.length, Slot.instr]⟩
    case h_3 mk b1 b2 tail hsl =>
      obtain ⟨rfl, rfl⟩ := Prod.mk.inj (Except.ok.inj h)
      exact ⟨b0, b1, b2, by simp [hsl, Slot.length, Slot.instr]⟩
    case h_4 => cases h

/-- Settles O3: a well-formed instruction is `decodeBytes` of three bytes, of which its encoding is the first ones. -/
theorem decodeEncodeRoundTrip : Obligations.DecodeEncodeRoundTrip := by
  intro i rest h
  rw [← decodeBytes_of_wf h, encode_decodeBytes, decode_take_append]

/-- Settles O4: what the decoder reads is `decodeBytes` of three bytes, whose encoding is the first ones. -/
theorem encodeDecodeRoundTrip : Obligations.EncodeDecodeRoundTrip := by
  intro bytes i rest h
  obtain ⟨b0, b1, b2, rfl, rfl⟩ := eq_decodeBytes_of_decode h
  exact ⟨decodeBytes_wf b0 b1 b2, by rw [encode_decodeBytes]⟩

/-- Settles O5: the descriptor and with it the length are the slot's, which the opcode byte alone chooses. -/
theorem lengthFromOpcodeByte : Obligations.LengthFromOpcodeByte := by
  intro b0 b1 b2
  obtain ⟨hmin, hmax⟩ := slotDescriptor_length b0 ▸ slot_length_bounds (slot b0)
  exact ⟨descriptor_decodeBytes b0 b1 b2, hmin, hmax, encode_decodeBytes b0 b1 b2⟩

/-- Settles O1: each word is the encoding of its instruction, with the bytes that follow it. -/
theorem tableWordsDecode : Obligations.TableWordsDecode :=
  ⟨decodeEncodeRoundTrip (.adcImmediate 0x12#8) [] rfl, decodeEncodeRoundTrip .brk [0x00#8] rfl,
    decodeEncodeRoundTrip (.jmpIndirect 0x20FF#16) [] rfl, decodeEncodeRoundTrip (.aslAbsoluteX 0x12FF#16) [] rfl,
    decodeEncodeRoundTrip (.ldxZeropageY 0xFF#8) [] rfl, decodeEncodeRoundTrip (.staIndirectY 0x42#8) [] rfl,
    decodeEncodeRoundTrip (.bne 0xFB#8) [] rfl, decodeEncodeRoundTrip (.bitZeropage 0x10#8) [] rfl,
    decodeEncodeRoundTrip (.decZeropage 0x10#8) [] rfl, decodeEncodeRoundTrip .pha [] rfl,
    decodeEncodeRoundTrip .sed [] rfl, decodeEncodeRoundTrip (.unimplemented 0x02#8) [] rfl⟩

/-- Settles O2: an unfilled slot decodes to the stub of its byte, whose row is the stub's. -/
theorem unfilledSlotsHoldTheStub : Obligations.UnfilledSlotsHoldTheStub := by
  refine ⟨by decide, by decide, fun opcode => ⟨slotDescriptor_opcode opcode,
    slotDescriptor_mnemonic_eq_unimplemented_iff opcode, fun h => ?_⟩⟩
  rw [slotDescriptor, decodeBytes_of_mem_unfilledOpcodes h]
  rfl

namespace Machine

/-- No fetched instruction fails the length check of 60_exceptions.md R342. -/
theorem decodeAt_eq_ok (m : Memory) (address : Word) : decodeAt m address = .ok (instrAt m address) := by
  refine if_pos ?_
  rw [instrAt, descriptor_decodeBytes, slotDescriptor_length]
  cases slot (m.read address) <;> rfl

/-- Settles O6: the list of three bytes decodes to the instruction that the fetch makes of them. -/
theorem stepRunsDecodedInstruction : Obligations.StepRunsDecodedInstruction := by
  intro s i rest h
  have hfetch := decode_take_append (s.mem.read s.pc) (s.mem.read (s.pc + 1#16)) (s.mem.read (s.pc + 2#16))
    ([s.mem.read s.pc, s.mem.read (s.pc + 1#16), s.mem.read (s.pc + 2#16)].drop
      (slotDescriptor (s.mem.read s.pc)).length)
  rw [List.take_append_drop] at hfetch
  obtain ⟨rfl, -⟩ := Prod.mk.inj (Except.ok.inj (h.symm.trans hfetch))
  rw [step, decodeAt_eq_ok]
  rfl

end Machine
end Sys2Proof
end

section
/-! PROOFS. Addressing and cycles (30_encoding.md R98 to R108, R113). The spec masks 16-bit addresses where the model
takes their two bytes apart; the first part passes from the one to the other. -/

namespace Sys2Proof.Machine

/-! ## Masks and bytes of an address (00_scope.md R8) -/

theorem toNat_zext16 (v : Byte) : (zext16 v).toNat = v.toNat := BitVec.toNat_setWidth_of_le (by decide)

theorem toNat_loByte (w : Word) : (loByte w).toNat = w.toNat % 256 := BitVec.extractLsb'_toNat 0 8 w

theorem toNat_hiByte (w : Word) : (hiByte w).toNat = w.toNat / 256 := by
  have := w.isLt
  simp only [hiByte, BitVec.extractLsb'_toNat, Nat.shiftRight_eq_div_pow]
  omega

theorem wordOf_and_wordOf (hi lo hi' lo' : Byte) :
    wordOf hi lo &&& wordOf hi' lo' = wordOf (hi &&& hi') (lo &&& lo') := BitVec.and_append

theorem wordOf_or_wordOf (hi lo hi' lo' : Byte) :
    wordOf hi lo ||| wordOf hi' lo' = wordOf (hi ||| hi') (lo ||| lo') := BitVec.or_append

/-- The address in page 0 with the same low byte. -/
theorem and_00FF_eq_zext16 (w : Word) : w &&& 0x00FF#16 = zext16 (loByte w) := by
  calc w &&& 0x00FF#16
    _ = wordOf (hiByte w) (loByte w) &&& wordOf 0x00#8 0xFF#8 := by rw [wordOf_hiByte_loByte]; rfl
    _ = wordOf 0x00#8 (loByte w) := by
      rw [wordOf_and_wordOf, BitVec.and_zero]
      exact congrArg _ BitVec.and_allOnes
    _ = zext16 (loByte w) := (zext16_eq_wordOf _).symm

/-- The address in the same page with another low byte. -/
theorem and_FF00_or_zext16 (w : Word) (lo : Byte) : w &&& 0xFF00#16 ||| zext16 lo = wordOf (hiByte w) lo := by
  calc w &&& 0xFF00#16 ||| zext16 lo
    _ = wordOf (hiByte w) (loByte w) &&& wordOf 0xFF#8 0x00#8 ||| wordOf 0x00#8 lo := by
      rw [wordOf_hiByte_loByte, zext16_eq_wordOf]; rfl
    _ = wordOf (hiByte w) lo := by
      rw [wordOf_and_wordOf, wordOf_or_wordOf, BitVec.and_zero, BitVec.zero_or, BitVec.or_zero]
      exact congrArg (wordOf · lo) BitVec.and_allOnes

theorem loByte_add_zext16 (w : Word) (v : Byte) : loByte (w + zext16 v) = loByte w + v := by
  apply BitVec.eq_of_toNat_eq
  simp only [toNat_loByte, BitVec.toNat_add, toNat_zext16]
  omega

theorem loByte_add_one (w : Word) : loByte (w + 1#16) = loByte w + 1#8 := loByte_add_zext16 w 1#8

/-- A word read through a zero-page pointer, as the spec writes the two addresses (30_encoding.md R104). -/
theorem readWordZP_loByte (m : Memory) (w : Word) :
    m.readWordZP (loByte w) =
      wordOf (m.read ((w &&& 0x00FF#16) + 1#16 &&& 0x00FF#16)) (m.read (w &&& 0x00FF#16)) := by
  rw [and_00FF_eq_zext16, and_00FF_eq_zext16, loByte_add_one, loByte_zext16, Memory.readWordZP]

/-! ## The modes -/

/-- Settles O15: the low byte of a sum is the sum of the low bytes. -/
theorem zeroPageModes : Obligations.ZeroPageModes := by
  intro d s
  refine ⟨fun hm => ?_, fun hm => ?_, fun hm => ?_⟩
  all_goals simp [effectiveAddress, pageCycles, hm, and_00FF_eq_zext16, loByte_add_zext16]

/-- Settles O16: the sum of two words is their sum modulo 65536. -/
theorem absoluteModes : Obligations.AbsoluteModes := by
  intro d s
  refine ⟨fun hm => ?_, fun hm => ?_, fun hm => ?_⟩
  all_goals simp [effectiveAddress, pageCycles, hm, toNat_zext16]

/-- Settles O17: the address of the high byte has the operand's page and the low byte after the operand's. -/
theorem indirectPointerPageWrap : Obligations.IndirectPointerPageWrap := by
  intro d s hm
  simp [effectiveAddress, pageCycles, hm, readPointer, and_00FF_eq_zext16, and_FF00_or_zext16, loByte_add_one]

/-- Settles O18: both pointers are words read in page 0. -/
theorem zeroPagePointers : Obligations.ZeroPagePointers := by
  intro d s
  refine ⟨fun hm => ?_, fun hm => ?_⟩
  all_goals simp [effectiveAddress, pageCycles, hm, ← readWordZP_loByte, loByte_add_zext16]

/-- Every mode with an effective address but Indirect gives the byte there (30_encoding.md R108). -/
theorem decodedValue_of_effectiveAddress {d : Decoded} {s : State} {ea : Word} (hea : effectiveAddress d s = some ea)
    (hm : d.mode ≠ .indirect) : decodedValue d s = .byte (s.mem.read ea) := by
  unfold decodedValue
  split
  case h_1 _ _ hmode | h_2 _ _ hmode | h_3 _ _ hmode => simp [effectiveAddress, hmode] at hea
  case h_4 hmode _ => exact absurd hmode hm
  case h_5 hea' _ _ _ _ => rw [Option.some.inj (hea.symm.trans hea')]
  case h_6 hnone _ _ _ => cases hea.symm.trans hnone

/-- Settles O20: the modes without an effective address have a value of their own. -/
theorem decodedValueOfEveryMode : Obligations.DecodedValueOfEveryMode := by
  intro d s
  refine ⟨fun hm => ?_, fun hm => ?_, fun hm => ?_, fun hm => ?_, fun hm => ?_⟩
  · simp [decodedValue, hm]
  · obtain hm | hm := hm <;> simp [decodedValue, hm]
  · have hea : ∃ ea, effectiveAddress d s = some ea := by
      simp only [List.mem_cons, List.not_mem_nil, or_false] at hm
      obtain hm | hm | hm | hm | hm | hm | hm | hm := hm <;> simp [effectiveAddress, hm]
    obtain ⟨ea, hea⟩ := hea
    refine ⟨ea, hea, decodedValue_of_effectiveAddress hea ?_⟩
    intro hind
    simp [hind] at hm
  · simp [decodedValue, effectiveAddress, hm]
  · obtain hm | hm := hm <;> simp [decodedValue, effectiveAddress, hm]

/-! ## The page-crossing cycle -/

theorem pageCrossed_iff (base : Word) (index : Byte) :
    pageCrossed base index = true ↔ 0xFF < (base &&& 0x00FF#16).toNat + index.toNat := by
  rw [and_00FF_eq_zext16, toNat_zext16, pageCrossed, decide_eq_true_iff]

/-- The low byte overflows exactly when the sum is in another page, the wrap at 0xFFFF included. -/
theorem pageCrossed_iff_hiByte_ne (base : Word) (index : Byte) :
    pageCrossed base index = true ↔ hiByte (base + zext16 index) ≠ hiByte base := by
  have hbase := base.isLt
  have hindex := index.isLt
  rw [ne_eq, ← BitVec.toNat_inj, toNat_hiByte, toNat_hiByte, BitVec.toNat_add, toNat_zext16, pageCrossed,
    decide_eq_true_iff, toNat_loByte]
  omega

theorem penaltyApplies_iff (params : Params) (cls : PageClass) :
    penaltyApplies params cls = true ↔ params.penaltyOnAllUsers = true ∨ cls = .read := by
  simp [penaltyApplies]

/-- Settles O19: the three modes add the index to their base and take the cycle by one condition. -/
theorem pageCrossingCycle : Obligations.PageCrossingCycle := by
  intro d s base index h
  have hresolve : effectiveAddress d s = some (base + zext16 index) ∧
      pageCycles d s = if pageCrossed base index && penaltyApplies s.params d.pageClass then 1 else 0 := by
    obtain ⟨hm, rfl, rfl⟩ | ⟨hm, rfl, rfl⟩ | ⟨hm, rfl, rfl⟩ := h <;> simp [effectiveAddress, pageCycles, hm]
  obtain ⟨hea, hcycles⟩ := hresolve
  simp only [Bool.and_eq_true, pageCrossed_iff, penaltyApplies_iff] at hcycles
  exact ⟨hcycles, _, hea, (pageCrossed_iff base index).symm.trans (pageCrossed_iff_hiByte_ne base index)⟩

/-! ## The cycles of an instruction (30_encoding.md R113) -/

/-- The handler leaves CYC to the common part of the step and adds at most a number of cycles to `d.extra`. -/
def Handler.AddsAtMost (h : Handler) (bound : Nat) : Prop :=
  ∀ d s s2 extra, h d s = some (s2, extra) → s2.cyc = s.cyc ∧ extra ≤ bound

theorem implied_addsAtMost {f : State → State} (hf : ∀ s, (f s).cyc = s.cyc) : (implied f).AddsAtMost 0 := by
  intro d s s2 extra h
  obtain ⟨rfl, rfl⟩ := Prod.mk.inj (Option.some.inj h)
  exact ⟨hf s, le_rfl⟩

theorem reading_addsAtMost {f : Byte → State → State} (hf : ∀ v s, (f v s).cyc = s.cyc) :
    (reading f).AddsAtMost 0 := by
  intro d s s2 extra h
  obtain ⟨v, -, rfl, rfl⟩ := reading_some h
  exact ⟨hf v s, le_rfl⟩

theorem storing_addsAtMost (f : State → Byte) : (storing f).AddsAtMost 0 := by
  intro d s s2 extra h
  obtain ⟨ea, -, rfl, rfl⟩ := storing_some h
  exact ⟨rfl, le_rfl⟩

theorem modifying_addsAtMost (f : Byte → Byte → Byte × Byte) : (modifying f).AddsAtMost 0 := by
  intro d s s2 extra h
  obtain ⟨v, s1, -, hst, rfl, rfl⟩ := modifying_some h
  obtain ⟨-, rfl⟩ | ⟨ea, -, -, rfl⟩ := storeResult_some hst <;> exact ⟨rfl, le_rfl⟩

theorem jumping_addsAtMost {f : State → State} (hf : ∀ s, (f s).cyc = s.cyc) : (jumping f).AddsAtMost 0 := by
  intro d s s2 extra h
  obtain ⟨ea, -, rfl, rfl⟩ := jumping_some h
  exact ⟨hf s, le_rfl⟩

theorem jumpingByValue_addsAtMost : jumpingByValue.AddsAtMost 0 := by
  intro d s s2 extra h
  obtain ⟨w, -, rfl, rfl⟩ := jumpingByValue_some h
  exact ⟨rfl, le_rfl⟩

theorem branchCycles_le_two (base target : Word) : branchCycles base target ≤ 2 := by
  unfold branchCycles
  split <;> omega

theorem branching_addsAtMost (f : Flag) (value : Bool) : (branching f value).AddsAtMost 2 := by
  intro d s s2 extra h
  obtain ⟨-, rfl, rfl⟩ | ⟨-, rfl, rfl⟩ := branching_some h
  · exact ⟨rfl, branchCycles_le_two _ _⟩
  · exact ⟨rfl, Nat.zero_le 2⟩

/-- No handler but a branch's adds a cycle (30_encoding.md R113). -/
theorem handlerOf_addsAtMost_zero {m : Mnemonic} (mode : Mode) (hm : branchTest m = none) :
    (handlerOf m mode).AddsAtMost 0 := by
  unfold handlerOf
  cases m with
  | bpl | bmi | bvc | bvs | bcc | bcs | bne | beq => cases hm
  | adc | sbc | and | ora | eor | bit | cmp | cpx | cpy | lda | ldx | ldy => exact reading_addsAtMost fun _ _ => rfl
  | asl | lsr | rol | ror | dec | inc => exact modifying_addsAtMost _
  | sta | stx | sty => exact storing_addsAtMost _
  | jmp =>
    dsimp only
    split
    · exact jumpingByValue_addsAtMost
    · exact jumping_addsAtMost fun _ => rfl
  | jsr => exact jumping_addsAtMost fun _ => rfl
  | brk => exact implied_addsAtMost fun s => enterTrap_cyc _ _ s
  | rts | rti | pha | php | pla | plp | tax | txa | tay | tya | tsx | txs | dex | dey | inx | iny
  | sec | clc | sed | cld | sei | cli | clv | nop | unimplemented => exact implied_addsAtMost fun _ => rfl

/-- A branch's handler adds at most two cycles (43_branch_brk.md R190). -/
theorem handlerOf_addsAtMost_two {m : Mnemonic} (mode : Mode) (hm : branchTest m ≠ none) :
    (handlerOf m mode).AddsAtMost 2 := by
  cases m
  case bpl | bmi | bvc | bvs | bcc | bcs | bne | beq => exact branching_addsAtMost _ _
  all_goals exact absurd rfl hm

/-- A branch has mode Branch, which resolves to no address and takes no page-crossing cycle (30_encoding.md R96). -/
theorem pageCycles_of_branchTest {i : Instr} (h : branchTest i.descriptor.mnemonic ≠ none) (address : Word) (s : State) :
    pageCycles (i.decodedAt address) s = 0 := by
  cases i
  case bpl | bmi | bvc | bvs | bcc | bcs | bne | beq => rfl
  all_goals exact absurd rfl h

/-- What the handler adds to the resolver's cycle: nothing, but for a branch, which has no resolver's cycle. -/
theorem exec_cyc {i : Instr} {s t : State} (h : exec i s = .next t) :
    ∃ extra, t.cyc = s.cyc + i.descriptor.baseCycles + (pageCycles (i.decodedAt s.pc) (advanced i s) + extra) ∧
      (branchTest i.descriptor.mnemonic = none → extra = 0) ∧
      (branchTest i.descriptor.mnemonic ≠ none → pageCycles (i.decodedAt s.pc) (advanced i s) = 0 ∧ extra ≤ 2) := by
  obtain ⟨s2, extra, hd, rfl⟩ := (execute_next_iff _ _ _ _).1 (execute_handlerOf_of_exec_next h)
  have hnone := fun hb => handlerOf_addsAtMost_zero _ hb _ _ s2 extra hd
  have hsome := fun hb => handlerOf_addsAtMost_two _ hb _ _ s2 extra hd
  have hcyc : s2.cyc = s.cyc := (em _).elim (fun hb => (hnone hb).1) fun hb => (hsome hb).1
  refine ⟨extra, ?_, fun hb => Nat.le_zero.1 (hnone hb).2, fun hb => ⟨pageCycles_of_branchTest hb _ _, (hsome hb).2⟩⟩
  rw [State.setCyc_cyc, hcyc, Nat.add_assoc]
  rfl

/-- Settles O55: either the handler or the resolver adds nothing. -/
theorem cycleAccounting : Obligations.CycleAccounting := by
  intro i s t h
  obtain ⟨extra, hcyc, hnone, hsome⟩ := exec_cyc h
  have hpage := pageCycles_le_one (i.decodedAt s.pc) (advanced i s)
  refine ⟨_, hcyc, ?_, fun hb => ?_⟩
  · by_cases hb : branchTest i.descriptor.mnemonic = none
    · have := hnone hb
      omega
    · have := hsome hb
      omega
  · have := hnone hb
    omega

/-! ## The disassembly text -/

/-- Settles O59, text by text. -/
theorem disassemblyTexts : Obligations.DisassemblyTexts := by
  refine ⟨?_, ?_, ?_, ?_, ?_, ?_, ?_, ?_, ?_, ?_, ?_, ?_, ?_, ?_, ?_, ?_, ?_⟩
  all_goals decide

end Sys2Proof.Machine
end

section
/-! PROOFS. ADC and SBC (40_arith.md R130 to R134). An instruction of either writes an ALU result, which is one equation
of `exec` for each mnemonic; the rest is about the ALU results themselves. The overflow of SBC is that of ADC on the
complement of the operand, and in decimal mode each digit of the result is a digit sum modulo 10. -/

namespace Sys2Proof.Machine

/-! ## The state after an ALU result -/

section Flags
variable (p : Byte) (r : AluResult)

@[simp] theorem getFlag_setNVZC_n : getFlag (setNVZC p r) .n = r.n := by simp [getFlag_setNVZC]
@[simp] theorem getFlag_setNVZC_v : getFlag (setNVZC p r) .v = r.v := by simp [getFlag_setNVZC]
@[simp] theorem getFlag_setNVZC_z : getFlag (setNVZC p r) .z = r.z := by simp [getFlag_setNVZC]
@[simp] theorem getFlag_setNVZC_c : getFlag (setNVZC p r) .c = r.c := by simp [getFlag_setNVZC]

end Flags

/-- The state after an instruction whose effect is to write an ALU result (30_encoding.md R112). -/
def afterAlu (i : Instr) (s : State) (r : AluResult) : State :=
  { s with a := r.value, p := setNVZC s.p r, pc := pastInstr i s, cyc := s.cyc + cost i s }

@[simp] theorem afterAlu_p (i : Instr) (s : State) (r : AluResult) : (afterAlu i s r).p = setNVZC s.p r := rfl

section Exec
variable {i : Instr} {s : State} {v : Byte}

theorem exec_adc (hi : i.descriptor.mnemonic = .adc) (hv : operandByte i s = some v) :
    exec i s = .next (afterAlu i s
      (if s.flag .d then addDecimal s.a v (s.flag .c) else addBinary s.a v (s.flag .c))) := by
  rw [exec_eq_execute i s (by rw [hi]; decide), hi]
  exact execute_reading adc hv

theorem exec_sbc (hi : i.descriptor.mnemonic = .sbc) (hv : operandByte i s = some v) :
    exec i s = .next (afterAlu i s
      (if s.flag .d then subDecimal s.a v (s.flag .c) else subBinary s.a v (s.flag .c))) := by
  rw [exec_eq_execute i s (by rw [hi]; decide), hi]
  exact execute_reading sbc hv

theorem exec_adc_binary (hi : i.descriptor.mnemonic = .adc) (hd : s.flag .d = false) (hv : operandByte i s = some v) :
    exec i s = .next (afterAlu i s (addBinary s.a v (s.flag .c))) := by
  simpa [hd] using exec_adc hi hv

theorem exec_adc_decimal (hi : i.descriptor.mnemonic = .adc) (hd : s.flag .d = true) (hv : operandByte i s = some v) :
    exec i s = .next (afterAlu i s (addDecimal s.a v (s.flag .c))) := by
  simpa [hd] using exec_adc hi hv

/-- SBC takes its flags from the binary computation in both modes (40_arith.md R132). -/
theorem exec_sbc_eq_subBinary_flags (hi : i.descriptor.mnemonic = .sbc) (hv : operandByte i s = some v) :
    exec i s = .next (afterAlu i s { subBinary s.a v (s.flag .c) with
      value := if s.flag .d then subAdjust s.a v (s.flag .c) (subBinary s.a v (s.flag .c)).value
        else (subBinary s.a v (s.flag .c)).value }) := by
  rw [exec_sbc hi hv]
  cases s.flag .d <;> rfl

end Exec

/-! ## Masks and nibbles of a byte -/

theorem getLsbD_seven_eq_decide_and_80 (x : Byte) : x.getLsbD 7 = decide (x &&& 0x80#8 ≠ 0#8) := by
  have h : x &&& 0x80#8 = if x.getLsbD 7 then 0x80#8 else 0#8 := BitVec.and_twoPow x 7
  rw [h]
  cases x.getLsbD 7 <;> rfl

theorem toNat_extractLsb'_zero_four (v : Byte) : (v.extractLsb' 0 4).toNat = lowNibble v :=
  BitVec.extractLsb'_toNat 0 4 v

theorem toNat_extractLsb'_four_four (v : Byte) : (v.extractLsb' 4 4).toNat = highNibble v := by
  have := v.isLt
  rw [BitVec.extractLsb'_toNat, Nat.shiftRight_eq_div_pow, highNibble]
  omega

theorem ofNat_shiftLeft_or_eq_nibbles (hi lo : Nat) :
    BitVec.ofNat 8 (((hi &&& 0xF) <<< 4) ||| (lo &&& 0xF)) = nibbles hi lo := by
  have hmask (n : Nat) : n &&& 0xF = n % 16 := Nat.and_two_pow_sub_one_eq_mod n 4
  have hlo : lo % 16 < 2 ^ 4 := Nat.mod_lt lo (by decide)
  rw [hmask, hmask, ← Nat.shiftLeft_add_eq_or_of_lt hlo, Nat.shiftLeft_eq]
  rfl

theorem xor_FF (v : Byte) : v ^^^ 0xFF#8 = ~~~v := BitVec.xor_allOnes

theorem toNat_nibbles (hi lo : Nat) : (nibbles hi lo).toNat = hi % 16 * 16 + lo % 16 := by
  rw [nibbles, BitVec.toNat_ofNat]
  omega

/-! ## The results of ADC and SBC -/

/-- Settles O21: A and the flags are the fields of `addBinary`. -/
theorem adcBinaryResult : Obligations.AdcBinaryResult := by
  intro i s hi hd
  obtain ⟨v, hv⟩ := operandByte_of_readsByte (i := i) s (by rw [hi]; rfl)
  refine ⟨v, _, hv, exec_adc_binary hi hd hv, BitVec.toNat_ofNat _ 8, getFlag_setNVZC_c _ _, ?_,
    ⟨getFlag_setNVZC_n _ _, getFlag_setNVZC_z _ _⟩, setNVZC_keepsFlagsExcept _ _, rfl⟩
  exact (getFlag_setNVZC_v _ _).trans (getLsbD_seven_eq_decide_and_80 _)

/-- Settles O22: A and the flags are the fields of `addDecimal`. -/
theorem adcDecimalResult : Obligations.AdcDecimalResult := by
  intro i s hi hd
  obtain ⟨v, hv⟩ := operandByte_of_readsByte (i := i) s (by rw [hi]; rfl)
  refine ⟨v, _, hv, exec_adc_decimal hi hd hv, ?_, setNVZC_keepsFlagsExcept _ _, rfl⟩
  simp only [toNat_extractLsb'_zero_four, toNat_extractLsb'_four_four, ofNat_shiftLeft_or_eq_nibbles,
    ← getLsbD_seven_eq_decide_and_80, afterAlu_p, getFlag_setNVZC_n, getFlag_setNVZC_v, getFlag_setNVZC_z,
    getFlag_setNVZC_c]
  exact ⟨rfl, rfl, rfl, rfl, rfl⟩

/-- Settles O23: the flags are the fields of `subBinary`, and A is its value or the adjusted one. -/
theorem sbcResult : Obligations.SbcResult := by
  intro i s hi
  obtain ⟨v, hv⟩ := operandByte_of_readsByte (i := i) s (by rw [hi]; rfl)
  refine ⟨v, _, hv, exec_sbc_eq_subBinary_flags hi hv, ?_, setNVZC_keepsFlagsExcept _ _, rfl⟩
  simp only [toNat_extractLsb'_zero_four, toNat_extractLsb'_four_four, ofNat_shiftLeft_or_eq_nibbles, xor_FF,
    ← getLsbD_seven_eq_decide_and_80, afterAlu_p, SetsNZ, getFlag_setNVZC_n, getFlag_setNVZC_v, getFlag_setNVZC_z,
    getFlag_setNVZC_c]
  exact ⟨rfl, rfl, ⟨rfl, rfl⟩, rfl⟩

/-! ## Overflow and borrow (40_arith.md R134) -/

theorem getLsbD_seven_eq_decide_le (x : Byte) : x.getLsbD 7 = decide (128 ≤ x.toNat) :=
  (BitVec.msb_eq_getLsbD_last x).symm.trans (BitVec.msb_eq_decide x)

theorem toInt_eq_ite (x : Byte) : x.toInt = if 128 ≤ x.toNat then (x.toNat : Int) - 256 else x.toNat :=
  (BitVec.toInt_eq_msb_cond x).trans (by simp [BitVec.msb_eq_decide])

theorem toInt_not (x : Byte) : (~~~x).toInt = -x.toInt - 1 := by
  have := x.isLt
  rw [toInt_eq_ite, toInt_eq_ite, BitVec.toNat_not]
  omega

/-- Bit 7 of the V formula of R130: the operands have one sign and the result the other. -/
theorem overflowBit_iff (a v r : Byte) :
    (~~~(a ^^^ v) &&& (a ^^^ r)).getLsbD 7 = true ↔
      (128 ≤ a.toNat ↔ 128 ≤ v.toNat) ∧ ¬ (128 ≤ a.toNat ↔ 128 ≤ r.toNat) := by
  have hbits : (~~~(a ^^^ v) &&& (a ^^^ r)).getLsbD 7 =
      (!(a.getLsbD 7 ^^ v.getLsbD 7) && (a.getLsbD 7 ^^ r.getLsbD 7)) := by simp
  simp only [hbits, getLsbD_seven_eq_decide_le, Bool.and_eq_true, Bool.not_eq_true', bne_iff_ne, bne_eq_false_iff_eq,
    ne_eq, decide_eq_decide]

/-- Two operands of one sign give a result of the other exactly when the signed sum does not fit in a byte. -/
theorem addBinary_v (a v : Byte) (carry : Bool) :
    (addBinary a v carry).v =
      decide (a.toInt + v.toInt + carry.toNat < -128 ∨ 127 < a.toInt + v.toInt + carry.toNat) := by
  have ha := a.isLt
  have hv := v.isLt
  have hc := carry.toNat_le
  rw [Bool.eq_iff_iff, decide_eq_true_iff, toInt_eq_ite, toInt_eq_ite]
  refine (overflowBit_iff a v _).trans ?_
  rw [BitVec.toNat_ofNat]
  omega

/-- Subtracting is adding the complement of the operand: the V formulas of R130 and R132 agree on it. -/
theorem subBinary_eq_addBinary_not (a v : Byte) (carry : Bool) : subBinary a v carry = addBinary a (~~~v) carry := by
  have hsign : ~~~(a ^^^ ~~~v) = a ^^^ v := by rw [← BitVec.not_xor_right, BitVec.not_not]
  simp only [subBinary, addBinary, hsign]

/-- The borrow of SBC is what C lacks to 1 (40_arith.md R132). -/
theorem toNat_add_toNat_not (carry : Bool) : carry.toNat + (!carry).toNat = 1 := by
  cases carry <;> rfl

theorem subBinary_v (a v : Byte) (carry : Bool) :
    (subBinary a v carry).v =
      decide (a.toInt - v.toInt - (!carry).toNat < -128 ∨ 127 < a.toInt - v.toInt - (!carry).toNat) := by
  have hsum : a.toInt + (~~~v).toInt + carry.toNat = a.toInt - v.toInt - (!carry).toNat := by
    have hborrow := toNat_add_toNat_not carry
    rw [toInt_not]
    omega
  rw [subBinary_eq_addBinary_not, addBinary_v, hsum]

theorem subBinary_c (a v : Byte) (carry : Bool) :
    (subBinary a v carry).c = decide (v.toNat + (!carry).toNat ≤ a.toNat) := by
  have hv := v.isLt
  have hborrow := toNat_add_toNat_not carry
  simp only [subBinary, BitVec.toNat_not, decide_eq_decide]
  omega

/-- Settles O24: V and C are those of the two binary computations. -/
theorem overflowIsSignedOverflow : Obligations.OverflowIsSignedOverflow := by
  intro i s t v hv ht
  refine ⟨fun hi hd => ?_, fun hi => ?_⟩
  · obtain rfl := Host.Outcome.next.inj ((exec_adc_binary hi hd hv).symm.trans ht)
    exact (getFlag_setNVZC_v _ _).trans (addBinary_v _ _ _)
  · obtain rfl := Host.Outcome.next.inj ((exec_sbc_eq_subBinary_flags hi hv).symm.trans ht)
    exact ⟨(getFlag_setNVZC_v _ _).trans (subBinary_v _ _ _), (getFlag_setNVZC_c _ _).trans (subBinary_c _ _ _)⟩

/-! ## Decimal digits (40_arith.md R131, R133) -/

theorem validBcd_iff (v : Byte) : validBcd v = true ↔ highNibble v < 10 ∧ lowNibble v < 10 := by
  simp [validBcd, highNibble, lowNibble]

theorem bcdNumber_eq (v : Byte) : bcdNumber v = highNibble v * 10 + lowNibble v := rfl

theorem toNat_eq_nibbles (v : Byte) : v.toNat = highNibble v * 16 + lowNibble v := (Nat.div_add_mod' v.toNat 16).symm

theorem highNibble_nibbles (hi lo : Nat) : highNibble (nibbles hi lo) = hi % 16 := by
  rw [highNibble, toNat_nibbles]
  omega

theorem lowNibble_nibbles (hi lo : Nat) : lowNibble (nibbles hi lo) = lo % 16 := by
  rw [lowNibble, toNat_nibbles]
  omega

/-- A byte of two nibbles that are digits is valid BCD and stands for the number of those digits. -/
theorem nibbles_bcd {hi lo h l : Nat} (hhi : hi % 16 = h) (hlo : lo % 16 = l) (hh : h < 10) (hl : l < 10) :
    validBcd (nibbles hi lo) = true ∧ bcdNumber (nibbles hi lo) = h * 10 + l := by
  rw [validBcd_iff, bcdNumber_eq, highNibble_nibbles, lowNibble_nibbles, hhi, hlo]
  exact ⟨⟨hh, hl⟩, rfl⟩

/-- The +6 correction leaves the last decimal digit of the sum of two digits and a carry. -/
theorem addSix_mod {n : Nat} (h : n < 20) : (n + if 9 < n then 6 else 0) % 16 = n % 10 := by
  split <;> omega

/-- The sum of a digit, the complement of a digit and a carry is 16 more than the digits' difference minus the borrow;
the +10 correction leaves the last decimal digit of that difference. -/
theorem addTen_mod {n : Nat} (hlow : 6 ≤ n) (hhigh : n ≤ 25) :
    (n % 16 + if n ≤ 0xF then 10 else 0) % 16 = (n + 4) % 10 := by
  split <;> omega

/-- The half-carry of a digit sum. -/
theorem toNat_decide_nine_lt {n : Nat} (h : n < 20) : (decide (9 < n)).toNat = n / 10 := by
  rw [Bool.toNat, Bool.cond_decide]
  split <;> omega

/-- A nibble of a difference carries into the next one exactly when it did not borrow (40_arith.md R133). -/
theorem ite_le_F_eq_div {n : Nat} (h : n < 32) : (if n ≤ 0xF then 0 else 1) = n / 16 := by
  split <;> omega

theorem addDecimal_bcd {a v : Byte} (ha : validBcd a = true) (hv : validBcd v = true) (carry : Bool) :
    validBcd (addDecimal a v carry).value = true ∧
      bcdNumber (addDecimal a v carry).value = (bcdNumber a + bcdNumber v + carry.toNat) % 100 ∧
      (addDecimal a v carry).c = decide (100 ≤ bcdNumber a + bcdNumber v + carry.toNat) := by
  obtain ⟨hah, hal⟩ := (validBcd_iff a).1 ha
  obtain ⟨hvh, hvl⟩ := (validBcd_iff v).1 hv
  have hc := carry.toNat_le
  generalize hlo : lowNibble a + lowNibble v + carry.toNat = lo
  generalize hhi : highNibble a + highNibble v + lo / 10 = hi
  have hlo20 : lo < 20 := by omega
  have hhi20 : hi < 20 := by omega
  have hvalue : (addDecimal a v carry).value =
      nibbles (hi + if 9 < hi then 6 else 0) (lo + if 9 < lo then 6 else 0) := by
    simp only [addDecimal, hlo, toNat_decide_nine_lt hlo20, hhi, decide_eq_true_eq]
  have hcarry : (addDecimal a v carry).c = decide (9 < hi) := by
    simp only [addDecimal, hlo, toNat_decide_nine_lt hlo20, hhi]
  obtain ⟨hvalid, hnumber⟩ := nibbles_bcd (addSix_mod hhi20) (addSix_mod hlo20)
    (Nat.mod_lt _ (by decide)) (Nat.mod_lt _ (by decide))
  rw [hvalue, hcarry, hnumber, bcdNumber_eq, bcdNumber_eq, decide_eq_decide]
  exact ⟨hvalid, by omega, by omega⟩

/-- Settles O25: the value of `addDecimal` is the decimal sum of two bytes in valid BCD. -/
theorem decimalAddIsDecimal : Obligations.DecimalAddIsDecimal := by
  intro i s v hi hd hv hsa hbcd
  obtain ⟨hvalid, hnumber, hcarry⟩ := addDecimal_bcd hsa hbcd (s.flag .c)
  exact ⟨_, exec_adc_decimal hi hd hv, hvalid, hnumber, (getFlag_setNVZC_c _ _).trans hcarry⟩

theorem lowNibble_not (v : Byte) : lowNibble (~~~v) = 15 - lowNibble v := by
  have := v.isLt
  rw [lowNibble, lowNibble, BitVec.toNat_not]
  omega

theorem highNibble_not (v : Byte) : highNibble (~~~v) = 15 - highNibble v := by
  have := v.isLt
  rw [highNibble, highNibble, BitVec.toNat_not]
  omega

/-- The binary difference is the two nibble sums of R133, each cut to four bits. -/
theorem subBinary_value_eq_nibbles (a v : Byte) (carry : Bool) {lo hi : Nat}
    (hlo : lowNibble a + lowNibble (~~~v) + carry.toNat = lo) (hhi : highNibble a + highNibble (~~~v) + lo / 16 = hi) :
    (subBinary a v carry).value = nibbles hi lo := by
  apply BitVec.eq_of_toNat_eq
  rw [toNat_nibbles, subBinary, BitVec.toNat_ofNat, toNat_eq_nibbles a, toNat_eq_nibbles (~~~v)]
  omega

theorem subAdjust_bcd {a v : Byte} (ha : validBcd a = true) (hv : validBcd v = true) (carry : Bool) :
    validBcd (subAdjust a v carry (subBinary a v carry).value) = true ∧
      bcdNumber (subAdjust a v carry (subBinary a v carry).value) =
        (bcdNumber a + 100 - bcdNumber v - (!carry).toNat) % 100 := by
  obtain ⟨hah, hal⟩ := (validBcd_iff a).1 ha
  obtain ⟨hvh, hvl⟩ := (validBcd_iff v).1 hv
  have hc := toNat_add_toNat_not carry
  have hlowNot := lowNibble_not v
  have hhighNot := highNibble_not v
  generalize hlo : lowNibble a + lowNibble (~~~v) + carry.toNat = lo
  generalize hhi : highNibble a + highNibble (~~~v) + lo / 16 = hi
  have hlo32 : lo < 32 := by omega
  have hvalue : subAdjust a v carry (subBinary a v carry).value =
      nibbles (hi % 16 + if hi ≤ 0xF then 10 else 0) (lo % 16 + if lo ≤ 0xF then 10 else 0) := by
    simp only [subBinary_value_eq_nibbles a v carry hlo hhi, subAdjust, hlo, decide_eq_true_eq,
      ite_le_F_eq_div hlo32, hhi, highNibble_nibbles, lowNibble_nibbles]
  obtain ⟨hvalid, hnumber⟩ := nibbles_bcd (addTen_mod (n := hi) (by omega) (by omega))
    (addTen_mod (n := lo) (by omega) (by omega)) (Nat.mod_lt _ (by decide)) (Nat.mod_lt _ (by decide))
  have hborrow : lo / 16 + 1 = (lo + 4) / 10 := by omega
  have hdifference : bcdNumber a + 100 - bcdNumber v - (!carry).toNat + 100 = (hi + 4) * 10 + (lo + 4) % 10 := by
    rw [bcdNumber_eq, bcdNumber_eq]
    omega
  rw [hvalue, hnumber]
  exact ⟨hvalid, by omega⟩

/-- Bytes in valid BCD are in the order of their numbers, so the binary borrow is the decimal one. -/
theorem toNat_add_le_iff_bcdNumber {a v : Byte} (ha : validBcd a = true) (hv : validBcd v = true) {borrow : Nat}
    (hb : borrow ≤ 1) : v.toNat + borrow ≤ a.toNat ↔ bcdNumber v + borrow ≤ bcdNumber a := by
  obtain ⟨hah, hal⟩ := (validBcd_iff a).1 ha
  obtain ⟨hvh, hvl⟩ := (validBcd_iff v).1 hv
  rw [toNat_eq_nibbles, toNat_eq_nibbles, bcdNumber_eq, bcdNumber_eq]
  omega

/-- Settles O26: the adjusted value is the decimal difference of two bytes in valid BCD, and C is the binary one. -/
theorem decimalSubtractIsDecimal : Obligations.DecimalSubtractIsDecimal := by
  intro i s v hi hd hv hsa hbcd
  obtain ⟨hvalid, hnumber⟩ := subAdjust_bcd hsa hbcd (s.flag .c)
  have hborrow := toNat_add_le_iff_bcdNumber hsa hbcd (Bool.toNat_le (!s.flag .c))
  have h := exec_sbc_eq_subBinary_flags hi hv
  rw [hd] at h
  refine ⟨_, h, hvalid, hnumber, (getFlag_setNVZC_c _ _).trans ((subBinary_c _ _ _).trans ?_)⟩
  exact decide_eq_decide.2 hborrow

end Sys2Proof.Machine
end

section
/-! PROOFS. AND, ORA, EOR and BIT (41_logic_bit.md R150 to R153). `exec_reading` is the one equation of `exec` for every
mnemonic that consumes an operand byte. AND, ORA and EOR have it with an operation on A and the byte. BIT's byte is the
one at its effective address, since both of its modes have one. -/

namespace Sys2Proof.Machine

/-! ## Instructions that consume an operand byte -/

theorem ne_unimplemented_of_readsByte {m : Mnemonic} (h : readsByte m = true) : m ≠ .unimplemented := by
  rintro rfl
  cases h

/-- An instruction whose rule consumes an operand byte applies the rule to the advanced state, then adds its cycles
(30_encoding.md R112, R113). -/
theorem exec_reading {i : Instr} {s : State} {v : Byte} {f : Byte → State → State}
    (hread : readsByte i.descriptor.mnemonic = true)
    (hf : handlerOf i.descriptor.mnemonic i.descriptor.mode = reading f) (hv : operandByte i s = some v) :
    exec i s = .next ((f v (advanced i s)).setCyc ((f v (advanced i s)).cyc + cost i s)) := by
  rw [exec_eq_execute i s (ne_unimplemented_of_readsByte hread), hf]
  exact execute_reading f hv

theorem setNZ_setsNZ (p r : Byte) : SetsNZ (setNZ p r) r := by
  simp [SetsNZ, getFlag_setNZ]

/-! ## AND, ORA and EOR -/

/-- A rule that writes A with N and Z from an operation on A and the operand byte (41_logic_bit.md R150 to R152). -/
def combineA (op : Byte → Byte → Byte) (v : Byte) (s : State) : State := s.setANZ (op s.a v)

theorem exec_combineA {i : Instr} {s : State} {v : Byte} {op : Byte → Byte → Byte}
    (hread : readsByte i.descriptor.mnemonic = true)
    (hf : handlerOf i.descriptor.mnemonic i.descriptor.mode = reading (combineA op)) (hv : operandByte i s = some v) :
    exec i s = .next { s with
      a := op s.a v, p := setNZ s.p (op s.a v), pc := pastInstr i s, cyc := s.cyc + cost i s } :=
  exec_reading hread hf hv

/-- Settles O27: the three mnemonics have one rule, for three operations. -/
theorem logicResults : Obligations.LogicResults := by
  intro i s op h
  have hrule : readsByte i.descriptor.mnemonic = true ∧
      handlerOf i.descriptor.mnemonic i.descriptor.mode = reading (combineA op) := by
    obtain ⟨hi, rfl⟩ | ⟨hi, rfl⟩ | ⟨hi, rfl⟩ := h <;> rw [hi] <;> exact ⟨rfl, rfl⟩
  obtain ⟨hread, hf⟩ := hrule
  obtain ⟨v, hv⟩ := operandByte_of_readsByte s hread
  exact ⟨v, _, hv, exec_combineA hread hf hv, rfl, setNZ_setsNZ _ _, setNZ_keepsFlagsExcept _ _, rfl⟩

/-! ## BIT -/

section Flags
variable (p a v : Byte)

@[simp] theorem getFlag_bitFlags_n : getFlag (bitFlags p a v) .n = v.getLsbD 7 := by simp [getFlag_bitFlags]
@[simp] theorem getFlag_bitFlags_v : getFlag (bitFlags p a v) .v = v.getLsbD 6 := by simp [getFlag_bitFlags]
@[simp] theorem getFlag_bitFlags_z : getFlag (bitFlags p a v) .z = (a &&& v == 0#8) := by simp [getFlag_bitFlags]

end Flags

/-- Both modes of BIT have an effective address (30_encoding.md R106). -/
theorem operandAddress_of_bit {i : Instr} (s : State) (h : i.descriptor.mnemonic = .bit) :
    ∃ ea, operandAddress i s = some ea := by
  cases i
  case bitZeropage | bitAbsolute => exact ⟨_, rfl⟩
  all_goals cases h

theorem exec_bit {i : Instr} {s : State} {ea : Word} (hi : i.descriptor.mnemonic = .bit)
    (hea : operandAddress i s = some ea) :
    exec i s = .next { s with
      p := bitFlags s.p s.a (s.mem.read ea), pc := pastInstr i s, cyc := s.cyc + cost i s } := by
  have hread : readsByte i.descriptor.mnemonic = true := by rw [hi]; rfl
  have hf : handlerOf i.descriptor.mnemonic i.descriptor.mode = reading bitTest := by rw [hi]; rfl
  obtain ⟨v, hv⟩ := operandByte_of_readsByte s hread
  rw [← operandByte_eq_read hv hea]
  exact exec_reading hread hf hv

/-- Settles O28: the flags are those of `bitFlags` for the byte at the effective address. -/
theorem bitTestResult : Obligations.BitTestResult := by
  intro i s hi
  obtain ⟨ea, hea⟩ := operandAddress_of_bit s hi
  exact ⟨ea, _, hea, exec_bit hi hea, getFlag_bitFlags_z _ _ _, getFlag_bitFlags_n _ _ _, getFlag_bitFlags_v _ _ _,
    bitFlags_keepsFlagsExcept _ _ _, rfl⟩

end Sys2Proof.Machine
end

section
/-! PROOFS. The four shifts (42_shift.md R170 to R174). A read-modify-write has one equation of `exec` where it writes
back to A and one where it writes back to memory. A shift has both: its result and its N, Z and C are those of the
shifting function it is built on, for the old C. -/

namespace Sys2Proof.Machine

/-! ## Write-back (30_encoding.md R109) -/

section WriteBack
variable {d : Decoded}

theorem storeResult_accumulator (hm : d.mode = .accumulator) (ea : Option Word) (r : Byte) (s : State) :
    storeResult d ea r s = some (s.setA r) := by
  simp only [storeResult, hm]

theorem storeResult_memory (hm : d.mode ≠ .accumulator) (ea : Word) (r : Byte) (s : State) :
    storeResult d (some ea) r s = some (s.store ea r) := by
  unfold storeResult
  split
  case h_1 hacc => exact absurd hacc hm
  case h_2 hea _ => rw [Option.some.inj hea]
  case h_3 hea _ => cases hea

theorem modifying_eq_some {f : Byte → Byte → Byte × Byte} {s s1 : State} {v : Byte} (hv : decodedValue d s = .byte v)
    (hst : storeResult d (effectiveAddress d s) (f v s.p).1 s = some s1) :
    modifying f d s = some (s1.setP (f v s.p).2, 0) := by
  simp only [modifying, hv, hst]

end WriteBack

/-! ## Read-modify-writes -/

theorem readsByte_of_modifies {m : Mnemonic} (h : m ∈ [.asl, .lsr, .rol, .ror, .inc, .dec]) : readsByte m = true := by
  simp only [List.mem_cons, List.not_mem_nil, or_false] at h
  obtain rfl | rfl | rfl | rfl | rfl | rfl := h <;> rfl

section Operand
variable {i : Instr} (s : State)

/-- In Accumulator mode the operand byte is A (30_encoding.md R108). -/
theorem operandByte_of_accumulator (hm : i.descriptor.mode = .accumulator) : operandByte i s = some s.a := by
  have hmode : (i.decodedAt s.pc).mode = .accumulator := hm
  simp [operandByte, decodedValue, hmode, advanced]

/-- A read-modify-write on memory has an effective address, and its operand byte is the one there
(30_encoding.md R106, R108). -/
theorem operandAddress_of_modifies (hi : i.descriptor.mnemonic ∈ [.asl, .lsr, .rol, .ror, .inc, .dec])
    (hm : i.descriptor.mode ≠ .accumulator) :
    ∃ ea, operandAddress i s = some ea ∧ operandByte i s = some (s.mem.read ea) := by
  obtain ⟨ea, hea⟩ := operandAddress_of_stores s (storesAtOperand_of_modifies hi hm)
  obtain ⟨v, hv⟩ := operandByte_of_readsByte s (readsByte_of_modifies hi)
  exact ⟨ea, hea, operandByte_eq_read hv hea ▸ hv⟩

end Operand

section Exec
variable {i : Instr} {s : State} {f : Byte → Byte → Byte × Byte}

/-- A read-modify-write writes its result back to the advanced state, then P, then adds its cycles
(42_shift.md R170; 30_encoding.md R112, R113). -/
theorem exec_modifying {s1 : State} {v : Byte} (hi : i.descriptor.mnemonic ∈ [.asl, .lsr, .rol, .ror, .inc, .dec])
    (hf : handlerOf i.descriptor.mnemonic i.descriptor.mode = modifying f) (hv : operandByte i s = some v)
    (hst : storeResult (i.decodedAt s.pc) (operandAddress i s) (f v s.p).1 (advanced i s) = some s1) :
    exec i s = .next ((s1.setP (f v s.p).2).setCyc (s1.cyc + cost i s)) := by
  rw [exec_eq_execute i s (ne_unimplemented_of_readsByte (readsByte_of_modifies hi)), hf]
  exact (execute_next_iff _ _ _ _).2 ⟨_, 0, modifying_eq_some (decodedValue_of_operandByte hv) hst, rfl⟩

theorem exec_modifying_accumulator (hi : i.descriptor.mnemonic ∈ [.asl, .lsr, .rol, .ror, .inc, .dec])
    (hf : handlerOf i.descriptor.mnemonic i.descriptor.mode = modifying f) (hm : i.descriptor.mode = .accumulator) :
    exec i s = .next { s with
      a := (f s.a s.p).1, p := (f s.a s.p).2, pc := pastInstr i s, cyc := s.cyc + cost i s } :=
  exec_modifying (s := s) hi hf (operandByte_of_accumulator s hm) (storeResult_accumulator hm _ _ _)

theorem exec_modifying_memory {ea : Word} (hi : i.descriptor.mnemonic ∈ [.asl, .lsr, .rol, .ror, .inc, .dec])
    (hf : handlerOf i.descriptor.mnemonic i.descriptor.mode = modifying f) (hm : i.descriptor.mode ≠ .accumulator)
    (hea : operandAddress i s = some ea) (hv : operandByte i s = some (s.mem.read ea)) :
    exec i s = .next { s with
      mem := s.mem.write ea (f (s.mem.read ea) s.p).1, p := (f (s.mem.read ea) s.p).2,
      pc := pastInstr i s, cyc := s.cyc + cost i s } :=
  exec_modifying (s1 := (advanced i s).store ea (f (s.mem.read ea) s.p).1) hi hf hv
    (hea ▸ storeResult_memory hm ea _ _)

end Exec

/-! ## ASL, LSR, ROL and ROR -/

theorem setNZC_setsNZ (p r : Byte) (c : Bool) : SetsNZ (setNZC p r c) r := by
  simp [SetsNZ, getFlag_setNZC]

@[simp] theorem getFlag_setNZC_c (p r : Byte) (c : Bool) : getFlag (setNZC p r c) .c = c := by
  simp [getFlag_setNZC]

theorem shifting_of_eq {f : Byte → Bool → Byte × Bool} {v p r : Byte} {out : Bool}
    (h : f v (getFlag p .c) = (r, out)) : shifting f v p = (r, setNZC p r out) := by
  simp only [shifting, h]

/-- ROL puts the old C into bit 0 (42_shift.md R173). -/
theorem shiftRol_eq (v : Byte) (carry : Bool) :
    shiftRol v carry = ((v <<< 1) ||| BitVec.ofNat 8 carry.toNat, v.getLsbD 7) := by
  cases carry <;> rfl

/-- ROR puts the old C into bit 7 (42_shift.md R174). -/
theorem shiftRor_eq (v : Byte) (carry : Bool) :
    shiftRor v carry = ((v >>> 1) ||| (BitVec.ofNat 8 carry.toNat <<< 7), v.getLsbD 0) := by
  cases carry <;> rfl

/-- Settles O29: the four mnemonics are read-modify-writes with one flag computation, for four shifting functions. -/
theorem shiftResults : Obligations.ShiftResults := by
  intro i s r out h
  have hrule : i.descriptor.mnemonic ∈ [.asl, .lsr, .rol, .ror, .inc, .dec] ∧
      ∃ f, handlerOf i.descriptor.mnemonic i.descriptor.mode = modifying (shifting f) ∧
        ∀ v, f v (s.flag .c) = (r v, out v) := by
    obtain ⟨hi, rfl, rfl⟩ | ⟨hi, rfl, rfl⟩ | ⟨hi, rfl, rfl⟩ | ⟨hi, rfl, rfl⟩ := h <;> rw [hi]
    · exact ⟨by simp, shiftAsl, rfl, fun _ => rfl⟩
    · exact ⟨by simp, shiftLsr, rfl, fun _ => rfl⟩
    · exact ⟨by simp, shiftRol, rfl, fun v => shiftRol_eq v _⟩
    · exact ⟨by simp, shiftRor, rfl, fun v => shiftRor_eq v _⟩
  obtain ⟨hi, f, hf, hfeq⟩ := hrule
  have hshift (v : Byte) : shifting f v s.p = (r v, setNZC s.p (r v) (out v)) := shifting_of_eq (hfeq v)
  by_cases hm : i.descriptor.mode = .accumulator
  · have hexec := exec_modifying_accumulator (s := s) hi hf hm
    rw [hshift] at hexec
    exact ⟨s.a, _, operandByte_of_accumulator s hm, hexec, getFlag_setNZC_c _ _ _, setNZC_setsNZ _ _ _,
      setNZC_keepsFlagsExcept _ _ _, fun _ => ⟨rfl, rfl⟩, fun hne => absurd hm hne⟩
  · obtain ⟨ea, hea, hv⟩ := operandAddress_of_modifies s hi hm
    have hexec := exec_modifying_memory hi hf hm hea hv
    rw [hshift] at hexec
    exact ⟨s.mem.read ea, _, hv, hexec, getFlag_setNZC_c _ _ _, setNZC_setsNZ _ _ _, setNZC_keepsFlagsExcept _ _ _,
      fun hacc => absurd hacc hm,
      fun _ => ⟨ea, hea, rfl, Memory.read_write_same _ _ _, fun _ hb => Memory.read_write_of_ne _ _ hb, rfl⟩⟩

end Sys2Proof.Machine
end

section
/-! PROOFS. The conditional branches and BRK (43_branch_brk.md R190 to R199). The eight branches are one handler for
eight tests, with one equation of `exec` where the test holds and one where it fails. BRK is trap entry to the address
after its signature byte; the three bytes trap entry pushes stand at three different addresses wherever SP is. -/

namespace Sys2Proof.Machine

/-! ## The branches -/

/-- The sum modulo 65 536 of R190 is that of the signed displacement. -/
theorem branchTarget_eq_ofInt (base : Word) (disp : Byte) :
    branchTarget base disp = BitVec.ofInt 16 (base.toNat + disp.toInt) := by
  rw [BitVec.ofInt_add, BitVec.ofInt_natCast, BitVec.ofNat_toNat, BitVec.setWidth_eq]
  rfl

theorem branching_of_eq {f : Flag} {value : Bool} {s : State} (d : Decoded) (h : s.flag f = value) :
    branching f value d s = some (s.setPc (branchTarget s.pc (loByte d.operand)),
      branchCycles s.pc (branchTarget s.pc (loByte d.operand))) :=
  congrArg some (if_pos h)

theorem branching_of_ne {f : Flag} {value : Bool} {s : State} (d : Decoded) (h : s.flag f ≠ value) :
    branching f value d s = some (s, 0) :=
  congrArg some (if_neg h)

section Exec
variable {i : Instr} {s s2 : State} {f : Flag} {value : Bool} {extra : Nat}

/-- The eight branches have one handler, for the flag and the value each tests, and 2 base cycles
(43_branch_brk.md R190; 30_encoding.md R96). -/
theorem row_of_branchTest (h : branchTest i.descriptor.mnemonic = some (f, value)) :
    exec i s = execute i (branching f value) s ∧ i.descriptor.baseCycles = 2 := by
  cases i
  case bpl | bmi | bvc | bvs | bcc | bcs | bne | beq =>
    obtain ⟨rfl, rfl⟩ := Prod.mk.inj (Option.some.inj h)
    exact ⟨rfl, rfl⟩
  all_goals cases h

/-- A branch costs 2 cycles and what its handler adds (30_encoding.md R113). -/
theorem exec_branch (h : branchTest i.descriptor.mnemonic = some (f, value))
    (hd : branching f value (i.decodedAt s.pc) (advanced i s) = some (s2, extra)) :
    exec i s = .next (s2.setCyc (s2.cyc + (2 + extra))) := by
  obtain ⟨hexec, hbase⟩ := row_of_branchTest (s := s) h
  have hpage : pageCycles (i.decodedAt s.pc) (advanced i s) = 0 := pageCycles_of_branchTest (by simp [h]) _ _
  rw [hexec]
  refine (execute_next_iff _ _ _ _).2 ⟨s2, extra, hd, ?_⟩
  change _ = s2.setCyc (s2.cyc + (i.descriptor.baseCycles + (pageCycles _ (advanced i s) + extra)))
  rw [hbase, hpage, Nat.zero_add]

theorem exec_branch_taken (h : branchTest i.descriptor.mnemonic = some (f, value)) (hf : s.flag f = value) :
    exec i s = .next { s with
      pc := branchTarget (pastInstr i s) (loByte i.operand)
      cyc := s.cyc + (2 + branchCycles (pastInstr i s) (branchTarget (pastInstr i s) (loByte i.operand))) } :=
  exec_branch h (branching_of_eq (s := advanced i s) _ hf)

theorem exec_branch_not_taken (h : branchTest i.descriptor.mnemonic = some (f, value)) (hf : s.flag f ≠ value) :
    exec i s = .next { s with pc := pastInstr i s, cyc := s.cyc + 2 } :=
  exec_branch h (branching_of_ne (s := advanced i s) _ hf)

end Exec

/-- Settles O33: where the test holds the target is the sum of R190; where it fails PC is left past the instruction. -/
theorem branchResults : Obligations.BranchResults := fun _ _ _ _ h =>
  ⟨fun hf => ⟨_, branchTarget_eq_ofInt _ _, exec_branch_taken h hf⟩, exec_branch_not_taken h⟩

/-! ## Trap entry -/

/-- Forcing B and U covers the B that trap entry sets before the push. -/
theorem setFlag_b_or_breakUnused (p : Byte) : setFlag p .b true ||| breakUnused = p ||| breakUnused := by
  apply flags_ext
  intro g
  rw [getFlag_force, getFlag_force]
  by_cases hg : g = .b
  · simp [hg]
  · rw [getFlag_setFlag_of_ne p true hg]

section Trap
variable (ret vector : Word) (s : State)

/-- The three writes of trap entry, each at an offset from SP and the last with P as it was before the trap. -/
theorem enterTrap_mem_eq : (enterTrap ret vector s).mem =
    ((s.mem.write (stackAddress s.sp) (hiByte ret)).write (stackAddress (s.sp - 1#8)) (loByte ret)).write
      (stackAddress (s.sp - 2#8)) (s.p ||| breakUnused) := by
  have hsp : s.sp - 1#8 - 1#8 = s.sp - 2#8 := by bv_omega
  rw [enterTrap_mem, hsp, setFlag_b_or_breakUnused]

theorem enterTrap_read_returnHigh : (enterTrap ret vector s).mem.read (stackAddress s.sp) = hiByte ret := by
  have hlow : stackAddress s.sp ≠ stackAddress (s.sp - 1#8) := (stackAddress_inj _ _).not.2 (by bv_omega)
  have hflags : stackAddress s.sp ≠ stackAddress (s.sp - 2#8) := (stackAddress_inj _ _).not.2 (by bv_omega)
  rw [enterTrap_mem_eq, Memory.read_write_of_ne _ _ hflags, Memory.read_write_of_ne _ _ hlow, Memory.read_write_same]

theorem enterTrap_read_returnLow : (enterTrap ret vector s).mem.read (stackAddress (s.sp - 1#8)) = loByte ret := by
  have hflags : stackAddress (s.sp - 1#8) ≠ stackAddress (s.sp - 2#8) := (stackAddress_inj _ _).not.2 (by bv_omega)
  rw [enterTrap_mem_eq, Memory.read_write_of_ne _ _ hflags, Memory.read_write_same]

theorem enterTrap_read_flags :
    (enterTrap ret vector s).mem.read (stackAddress (s.sp - 2#8)) = s.p ||| breakUnused := by
  rw [enterTrap_mem_eq, Memory.read_write_same]

/-- Trap entry writes the three stack bytes alone (43_branch_brk.md R199). -/
theorem enterTrap_read_of_ne {a : Word} (hhigh : a ≠ stackAddress s.sp) (hlow : a ≠ stackAddress (s.sp - 1#8))
    (hflags : a ≠ stackAddress (s.sp - 2#8)) : (enterTrap ret vector s).mem.read a = s.mem.read a := by
  rw [enterTrap_mem_eq, Memory.read_write_of_ne _ _ hflags, Memory.read_write_of_ne _ _ hlow,
    Memory.read_write_of_ne _ _ hhigh]

theorem enterTrap_flag_b : (enterTrap ret vector s).flag .b = true := by
  simp [State.flag, enterTrap_p, getFlag_setFlag]

theorem enterTrap_flag_i : (enterTrap ret vector s).flag .i = true := by
  simp [State.flag, enterTrap_p]

/-- Trap entry keeps D among the flags other than B and I (log 12). -/
theorem enterTrap_keepsFlagsExcept : KeepsFlagsExcept s.p (enterTrap ret vector s).p [.b, .i] := by
  intro f hf
  simp only [List.mem_cons, List.not_mem_nil, or_false, not_or] at hf
  obtain ⟨hb, hi⟩ := hf
  rw [enterTrap_p, getFlag_setFlag_of_ne _ _ hi, getFlag_setFlag_of_ne _ _ hb]

/-- Trap entry writes memory, P, SP and PC, the last from the memory after the pushes (43_branch_brk.md R199). -/
theorem enterTrap_eq : enterTrap ret vector s = { s with
    mem := (enterTrap ret vector s).mem
    p := (enterTrap ret vector s).p
    sp := s.sp - 3#8
    pc := (enterTrap ret vector s).mem.readWord vector } := by
  have hsp : s.sp - 1#8 - 1#8 - 1#8 = s.sp - 3#8 := by bv_omega
  exact State.ext_fields (enterTrap_a _ _ s) (enterTrap_x _ _ s) (enterTrap_y _ _ s) ((enterTrap_sp _ _ s).trans hsp)
    (enterTrap_pc _ _ s) rfl (enterTrap_cyc _ _ s) rfl (enterTrap_params _ _ s)

/-- Trap entry takes the return address as it is given and does not read PC. -/
theorem enterTrap_setPc (pc : Word) : enterTrap ret vector (s.setPc pc) = enterTrap ret vector s := rfl

end Trap

/-! ## BRK -/

/-- The vector word has its low byte at 0xFFFE and its high byte at 0xFFFF (20_memory.md R62; log 26). -/
theorem readWord_brkVector (m : Memory) :
    m.readWord Config.brkVector = wordOf (m.read 0xFFFF#16) (m.read 0xFFFE#16) := by
  have hnext : Config.brkVector + 1#16 = 0xFFFF#16 := rfl
  rw [Memory.readWord, hnext, Config.brkVector]

theorem breakTrap_advanced (s : State) :
    breakTrap (advanced .brk s) = enterTrap (s.pc + 2#16) Config.brkVector s := by
  have hret : pastInstr .brk s + 1#16 = s.pc + 2#16 := BitVec.add_assoc s.pc 1#16 1#16
  rw [breakTrap, advanced, State.setPc_pc, hret, enterTrap_setPc]

/-- BRK enters the trap with the address of BRK plus 2, and costs 7 cycles. -/
theorem exec_brk (s : State) :
    exec .brk s = .next ((enterTrap (s.pc + 2#16) Config.brkVector s).setCyc (s.cyc + 7)) := by
  have hcost : (Instr.descriptor .brk).baseCycles + (pageCycles (Instr.decodedAt .brk s.pc) (advanced .brk s) + 0) = 7 :=
    rfl
  rw [exec, execBrk, execute_implied, breakTrap_advanced, enterTrap_cyc, hcost]

/-- The whole next state of trap entry through the vector at 0xFFFE. -/
theorem setCyc_enterTrap_brkVector (ret : Word) (s : State) (n : Nat) :
    (enterTrap ret Config.brkVector s).setCyc n = { s with
      mem := (enterTrap ret Config.brkVector s).mem
      p := (enterTrap ret Config.brkVector s).p
      sp := s.sp - 3#8
      cyc := n
      pc := wordOf ((enterTrap ret Config.brkVector s).mem.read 0xFFFF#16)
        ((enterTrap ret Config.brkVector s).mem.read 0xFFFE#16) } := by
  rw [← readWord_brkVector]
  exact congrArg (State.setCyc · n) (enterTrap_eq ret Config.brkVector s)

/-- The address of a stack byte, as the spec writes it (10_state.md R23). -/
theorem stackBase_add_zext16 (sp : Byte) : 0x0100#16 + zext16 sp = stackAddress sp := rfl

/-- Settles O34: BRK is trap entry, whose three pushes do not meet. -/
theorem brkTakesTheTrap : Obligations.BrkTakesTheTrap := by
  intro s
  refine ⟨_, exec_brk s, ?_⟩
  simp only [stackBase_add_zext16, State.setCyc_mem, State.setCyc_p, State.setCyc_flag]
  exact ⟨enterTrap_read_returnHigh _ _ s, enterTrap_read_returnLow _ _ s, enterTrap_read_flags _ _ s,
    fun _ => enterTrap_read_of_ne _ _ s, enterTrap_flag_b _ _ s, enterTrap_flag_i _ _ s,
    enterTrap_keepsFlagsExcept _ _ s, setCyc_enterTrap_brkVector _ s _⟩

end Sys2Proof.Machine
end

section
/-! PROOFS. The compares, increments and decrements (44_compare_incdec.md R210 to R219). The compares have one rule for
three registers. DEC and INC are read-modify-writes whose rows all address memory. DEX, DEY, INX and INY are rules
without operand that write X or Y with N and Z. -/

namespace Sys2Proof.Machine

/-! ## CMP, CPX and CPY -/

section Flags
variable (p r v : Byte)

theorem getFlag_compareFlags_c : getFlag (compareFlags p r v) .c = decide (v.toNat ≤ r.toNat) :=
  getFlag_setNZC_c _ _ _

theorem getFlag_compareFlags_n : getFlag (compareFlags p r v) .n = (r - v).getLsbD 7 :=
  (setNZC_setsNZ _ _ _).1

/-- The difference is zero where the register equals the operand (44_compare_incdec.md R210). -/
theorem getFlag_compareFlags_z : getFlag (compareFlags p r v) .z = decide (r = v) :=
  (setNZC_setsNZ _ _ _).2.trans (decide_eq_decide.2 sub_eq_zero)

theorem compareFlags_keepsFlagsExcept : KeepsFlagsExcept p (compareFlags p r v) [.n, .z, .c] :=
  setNZC_keepsFlagsExcept _ _ _

end Flags

/-- A compare writes P alone, whatever D holds. The advanced state has the same A, X and Y, which `hreg` says of the
register compared. -/
theorem exec_comparing {i : Instr} {s : State} {v : Byte} {register : State → Byte}
    (hread : readsByte i.descriptor.mnemonic = true)
    (hf : handlerOf i.descriptor.mnemonic i.descriptor.mode = reading (comparing register))
    (hreg : register (advanced i s) = register s) (hv : operandByte i s = some v) :
    exec i s = .next { s with
      p := compareFlags s.p (register s) v, pc := pastInstr i s, cyc := s.cyc + cost i s } :=
  hreg ▸ exec_reading hread hf hv

/-- Settles O30: the three mnemonics have one rule, for three registers. -/
theorem compareResults : Obligations.CompareResults := by
  intro i s r h
  have hrule : readsByte i.descriptor.mnemonic = true ∧ ∃ register : State → Byte,
      handlerOf i.descriptor.mnemonic i.descriptor.mode = reading (comparing register) ∧
        register (advanced i s) = register s ∧ r = register s := by
    obtain ⟨hi, hr⟩ | ⟨hi, hr⟩ | ⟨hi, hr⟩ := h <;> rw [hi]
    · exact ⟨rfl, State.a, rfl, rfl, hr⟩
    · exact ⟨rfl, State.x, rfl, rfl, hr⟩
    · exact ⟨rfl, State.y, rfl, rfl, hr⟩
  obtain ⟨hread, register, hf, hreg, rfl⟩ := hrule
  obtain ⟨v, hv⟩ := operandByte_of_readsByte s hread
  exact ⟨v, _, hv, exec_comparing hread hf hreg hv, getFlag_compareFlags_c _ _ _, getFlag_compareFlags_z _ _ _,
    getFlag_compareFlags_n _ _ _, compareFlags_keepsFlagsExcept _ _ _, rfl⟩

/-! ## DEC and INC -/

/-- Only the shifts have an Accumulator row (30_encoding.md R96; 44_compare_incdec.md R214, R215). -/
theorem mode_ne_accumulator_of_dec_or_inc {i : Instr}
    (h : i.descriptor.mnemonic = .dec ∨ i.descriptor.mnemonic = .inc) : i.descriptor.mode ≠ .accumulator := by
  cases i
  case aslAccumulator | lsrAccumulator | rolAccumulator | rorAccumulator => obtain h | h := h <;> cases h
  all_goals exact Mode.noConfusion

/-- Settles O31: both mnemonics are read-modify-writes on memory, whose result and flags are those of one function of
the byte. -/
theorem memoryIncDecResults : Obligations.MemoryIncDecResults := by
  intro i s r h
  have hrule : i.descriptor.mnemonic ∈ [.asl, .lsr, .rol, .ror, .inc, .dec] ∧
      handlerOf i.descriptor.mnemonic i.descriptor.mode = modifying fun v p => (r v, setNZ p (r v)) := by
    obtain ⟨hi, rfl⟩ | ⟨hi, rfl⟩ := h <;> rw [hi] <;> exact ⟨by simp, rfl⟩
  obtain ⟨hi, hf⟩ := hrule
  have hm : i.descriptor.mode ≠ .accumulator := mode_ne_accumulator_of_dec_or_inc (h.imp And.left And.left)
  obtain ⟨ea, hea, hv⟩ := operandAddress_of_modifies s hi hm
  exact ⟨ea, _, hea, exec_modifying_memory hi hf hm hea hv, Memory.read_write_same _ _ _,
    fun _ hb => Memory.read_write_of_ne _ _ hb, setNZ_setsNZ _ _, setNZ_keepsFlagsExcept _ _, rfl⟩

/-! ## DEX, DEY, INX and INY -/

section Implied
variable {i : Instr} (s : State)

/-- An instruction without operand applies its rule to the advanced state, then adds its cycles
(30_encoding.md R112, R113). -/
theorem exec_implied {f : State → State} (hi : i.descriptor.mnemonic ≠ .unimplemented)
    (hf : handlerOf i.descriptor.mnemonic i.descriptor.mode = implied f) :
    exec i s = .next ((f (advanced i s)).setCyc ((f (advanced i s)).cyc + cost i s)) := by
  rw [exec_eq_execute i s hi, hf]
  exact execute_implied i f s

theorem exec_setXNZ {r : State → Byte} (hi : i.descriptor.mnemonic ≠ .unimplemented)
    (hf : handlerOf i.descriptor.mnemonic i.descriptor.mode = implied fun s => s.setXNZ (r s)) :
    exec i s = .next { s with
      x := r (advanced i s), p := setNZ s.p (r (advanced i s)), pc := pastInstr i s, cyc := s.cyc + cost i s } :=
  exec_implied s hi hf

theorem exec_setYNZ {r : State → Byte} (hi : i.descriptor.mnemonic ≠ .unimplemented)
    (hf : handlerOf i.descriptor.mnemonic i.descriptor.mode = implied fun s => s.setYNZ (r s)) :
    exec i s = .next { s with
      y := r (advanced i s), p := setNZ s.p (r (advanced i s)), pc := pastInstr i s, cyc := s.cyc + cost i s } :=
  exec_implied s hi hf

end Implied

/-- Settles O32: each of the four writes X or Y with N and Z, in 1 byte and 2 cycles by its row. -/
theorem registerIncDecResults : Obligations.RegisterIncDecResults := fun s =>
  ⟨⟨_, exec_setXNZ (i := .dex) s Mnemonic.noConfusion rfl, setNZ_setsNZ _ _, setNZ_keepsFlagsExcept _ _, rfl⟩,
    ⟨_, exec_setYNZ (i := .dey) s Mnemonic.noConfusion rfl, setNZ_setsNZ _ _, setNZ_keepsFlagsExcept _ _, rfl⟩,
    ⟨_, exec_setXNZ (i := .inx) s Mnemonic.noConfusion rfl, setNZ_setsNZ _ _, setNZ_keepsFlagsExcept _ _, rfl⟩,
    ⟨_, exec_setYNZ (i := .iny) s Mnemonic.noConfusion rfl, setNZ_setsNZ _ _, setNZ_keepsFlagsExcept _ _, rfl⟩⟩

end Sys2Proof.Machine
end

section
/-! PROOFS. JMP, JSR, RTS and RTI (45_jump.md R240 to R243). JMP and JSR jump to a resolved address, RTS and RTI to a
popped one. The returns past a JSR and a BRK come from two round trips of the stack: a word popped after its push, and
trap return after trap entry. -/

namespace Sys2Proof.Machine

@[simp] theorem setPc_setPc (s : State) (v w : Word) : (s.setPc v).setPc w = s.setPc w := rfl

/-! ## JMP -/

/-- The word behind JMP's pointer, as the spec writes the two addresses (30_encoding.md R103). -/
theorem readPointer_eq (m : Memory) (p : Word) :
    readPointer m p = wordOf (m.read ((p &&& 0xFF00#16) ||| ((p + 1#16) &&& 0x00FF#16))) (m.read p) := by
  rw [and_00FF_eq_zext16, and_FF00_or_zext16, loByte_add_one, readPointer]

/-- A jump to an effective address has its effect on the advanced state, then continues at the address
(45_jump.md R240, R241). -/
theorem exec_jumping {i : Instr} {s : State} {ea : Word} {f : State → State}
    (hi : i.descriptor.mnemonic ≠ .unimplemented)
    (hf : handlerOf i.descriptor.mnemonic i.descriptor.mode = jumping f) (hea : operandAddress i s = some ea) :
    exec i s = .next (((f (advanced i s)).setPc ea).setCyc ((f (advanced i s)).cyc + cost i s)) := by
  have hjump : jumping f (i.decodedAt s.pc) (advanced i s) = some ((f (advanced i s)).setPc ea, 0) := by
    rw [operandAddress] at hea
    rw [jumping, hea]
  rw [exec_eq_execute i s hi, hf]
  exact (execute_next_iff _ _ _ _).2 ⟨_, _, hjump, rfl⟩

theorem exec_jmpAbsolute (w : Word) (s : State) :
    exec (.jmpAbsolute w) s = .next { s with pc := w, cyc := s.cyc + 3 } :=
  exec_jumping (i := .jmpAbsolute w) (f := id) Mnemonic.noConfusion rfl rfl

/-- The decoded value of Indirect mode is the word behind the pointer (30_encoding.md R108). -/
theorem exec_jmpIndirect (w : Word) (s : State) :
    exec (.jmpIndirect w) s = .next { s with pc := readPointer s.mem w, cyc := s.cyc + 5 } := by
  have hvalue : jumpingByValue (Instr.decodedAt (.jmpIndirect w) s.pc) (advanced (.jmpIndirect w) s) =
      some ((advanced (.jmpIndirect w) s).setPc (readPointer s.mem w), 0) := rfl
  rw [exec_eq_execute _ s Mnemonic.noConfusion]
  exact (execute_next_iff _ _ _ _).2 ⟨_, _, hvalue, rfl⟩

/-- Settles O35: the page of the pointer's high byte is the pointer's own. -/
theorem jmpResults : Obligations.JmpResults := by
  intro w s
  rw [← readPointer_eq]
  exact ⟨exec_jmpAbsolute w s, exec_jmpIndirect w s⟩

/-! ## JSR -/

section PushWord
variable (w : Word) (s : State)

theorem pushWord_read_high : (pushWord w s).mem.read (stackAddress s.sp) = hiByte w := by
  have hbelow : stackAddress s.sp ≠ stackAddress (s.sp - 1#8) := (stackAddress_inj _ _).not.2 (by bv_omega)
  rw [pushWord, push_mem, push_sp, Memory.read_write_of_ne _ _ hbelow, push_mem, Memory.read_write_same]

theorem pushWord_read_low : (pushWord w s).mem.read (stackAddress (s.sp - 1#8)) = loByte w :=
  Memory.read_write_same _ _ _

theorem pushWord_read_of_ne {a : Word} (hhigh : a ≠ stackAddress s.sp) (hlow : a ≠ stackAddress (s.sp - 1#8)) :
    (pushWord w s).mem.read a = s.mem.read a := by
  rw [pushWord, push_mem, push_sp, Memory.read_write_of_ne _ _ hlow, push_mem, Memory.read_write_of_ne _ _ hhigh]

/-- PushWord writes memory and SP alone (20_memory.md R68). -/
theorem pushWord_eq_sub_two : pushWord w s = { s with mem := (pushWord w s).mem, sp := s.sp - 2#8 } := by
  have hsp : s.sp - 1#8 - 1#8 = s.sp - 2#8 := by bv_omega
  rw [← hsp]
  rfl

theorem pushWord_setSp_self : (pushWord w s).setSp s.sp = s.setMem (pushWord w s).mem := by
  rw [pushWord_eq_sub_two]
  rfl

theorem pushWord_setPc (pc : Word) : pushWord w (s.setPc pc) = (pushWord w s).setPc pc := rfl

theorem pushWord_setCyc (n : Nat) : pushWord w (s.setCyc n) = (pushWord w s).setCyc n := rfl

theorem pushWord_cyc : (pushWord w s).cyc = s.cyc := by
  rw [pushWord, push_cyc, push_cyc]

end PushWord

/-- JSR's push is of the address of its own last byte; it keeps PC for the jump to replace. -/
theorem pushReturn_advanced (target : Word) (s : State) :
    pushReturn (advanced (.jsr target) s) = (pushWord (s.pc + 2#16) s).setPc (pastInstr (.jsr target) s) := by
  have hret : pastInstr (.jsr target) s - 1#16 = s.pc + 2#16 := by
    have hlength : pastInstr (.jsr target) s = s.pc + 3#16 := rfl
    rw [hlength]
    bv_omega
  rw [pushReturn, advanced, State.setPc_pc, hret, pushWord_setPc]

/-- JSR is one PushWord from the state that continues at the target: the push reads neither PC nor CYC. -/
theorem exec_jsr (target : Word) (s : State) :
    exec (.jsr target) s = .next (pushWord (s.pc + 2#16) ((s.setPc target).setCyc (s.cyc + 6))) := by
  have hcost : cost (.jsr target) s = 6 := rfl
  rw [exec_jumping (i := .jsr target) (ea := target) (f := pushReturn) Mnemonic.noConfusion rfl rfl,
    pushReturn_advanced, State.setPc_cyc, pushWord_cyc, hcost, setPc_setPc, pushWord_setCyc, pushWord_setPc]

/-- Settles O36: JSR is one PushWord, whose two bytes do not meet. -/
theorem jsrResult : Obligations.JsrResult := fun target s =>
  ⟨_, exec_jsr target s, pushWord_read_high _ _, pushWord_read_low _ _, fun _ => pushWord_read_of_ne _ _,
    pushWord_eq_sub_two _ _⟩

/-! ## RTS -/

/-- PopWord takes the two bytes above SP (20_memory.md R69). -/
theorem popWord_eq_add_two (s : State) : popWord s =
    (wordOf (s.mem.read (stackAddress (s.sp + 2#8))) (s.mem.read (stackAddress (s.sp + 1#8))),
      s.setSp (s.sp + 2#8)) := by
  have hsp : s.sp + 1#8 + 1#8 = s.sp + 2#8 := BitVec.add_assoc s.sp 1#8 1#8
  rw [popWord_eq, hsp, setSp_setSp]

/-- RTS continues one past the word it pops. -/
theorem exec_rts (s : State) :
    exec .rts s = .next (((popWord s).2.setPc ((popWord s).1 + 1#16)).setCyc (s.cyc + 6)) :=
  exec_implied (i := .rts) (f := returnFromSubroutine) s Mnemonic.noConfusion rfl

/-- Settles O37: RTS is one PopWord. -/
theorem rtsResult : Obligations.RtsResult := by
  intro s
  rw [exec_rts, popWord_eq_add_two]
  rfl

/-- RTS right after a PushWord continues one past the word pushed, with SP restored (20_memory.md R68, R69). -/
theorem exec_rts_pushWord (w : Word) (s : State) : exec .rts (pushWord w s) =
    .next (((s.setMem (pushWord w s).mem).setPc (w + 1#16)).setCyc (s.cyc + 6)) := by
  rw [exec_rts, popWord_pushWord, pushWord_setSp_self, pushWord_cyc]

/-- Settles O39: RTS pops the word JSR pushed, the address of JSR's last byte. -/
theorem rtsReturnsPastJsr : Obligations.RtsReturnsPastJsr := by
  intro target s
  have hnext : s.pc + 2#16 + 1#16 = s.pc + 3#16 := BitVec.add_assoc s.pc 2#16 1#16
  exact ⟨_, _, exec_jsr target s, rfl, exec_rts_pushWord _ _, hnext, rfl, rfl⟩

/-! ## RTI -/

/-- Trap return takes the three bytes above SP. -/
theorem returnFromTrap_eq_add_three (s : State) : returnFromTrap s = { s with
    p := pulledFlags s.params (s.mem.read (stackAddress (s.sp + 1#8)))
    pc := wordOf (s.mem.read (stackAddress (s.sp + 3#8))) (s.mem.read (stackAddress (s.sp + 2#8)))
    sp := s.sp + 3#8 } := by
  have htwo : s.sp + 1#8 + 1#8 = s.sp + 2#8 := BitVec.add_assoc s.sp 1#8 1#8
  have hthree : s.sp + 2#8 + 1#8 = s.sp + 3#8 := BitVec.add_assoc s.sp 2#8 1#8
  rw [returnFromTrap_eq, htwo, hthree]

/-- Trap return replaces PC unread. -/
theorem returnFromTrap_setPc (s : State) (pc : Word) : returnFromTrap (s.setPc pc) = returnFromTrap s := rfl

theorem returnFromTrap_setCyc (s : State) (n : Nat) : returnFromTrap (s.setCyc n) = (returnFromTrap s).setCyc n := rfl

theorem returnFromTrap_cyc (s : State) : (returnFromTrap s).cyc = s.cyc := by
  rw [returnFromTrap_eq]

theorem exec_rti (s : State) : exec .rti s = .next ((returnFromTrap s).setCyc (s.cyc + 6)) := by
  have hcost : cost .rti s = 6 := rfl
  rw [exec_implied (i := .rti) (f := returnFromTrap) s Mnemonic.noConfusion rfl, advanced, returnFromTrap_setPc,
    returnFromTrap_cyc, hcost]

/-- Settles O38: RTI is trap return. -/
theorem rtiResult : Obligations.RtiResult := by
  intro s
  rw [exec_rti, returnFromTrap_eq_add_three]
  rfl

/-- A byte with B and U set is pulled as it is, under either value of PULL_FORCE_BU (log 5). -/
theorem pulledFlags_or_breakUnused (params : Params) (p : Byte) :
    pulledFlags params (p ||| breakUnused) = p ||| breakUnused := by
  rw [pulledFlags, BitVec.or_assoc, BitVec.or_self, ite_self]

/-- Trap return undoes trap entry but for the stack bytes written, B and U, and continues at the return address
(45_jump.md R243; 43_branch_brk.md R199). -/
theorem returnFromTrap_enterTrap (ret vector : Word) (s : State) : returnFromTrap (enterTrap ret vector s) = { s with
    mem := (enterTrap ret vector s).mem
    p := s.p ||| breakUnused
    pc := ret } := by
  have hsp : (enterTrap ret vector s).sp = s.sp - 3#8 := congrArg State.sp (enterTrap_eq ret vector s)
  have hflags : s.sp - 3#8 + 1#8 = s.sp - 2#8 := by bv_omega
  have hlow : s.sp - 3#8 + 2#8 = s.sp - 1#8 := by bv_omega
  have hhigh : s.sp - 3#8 + 3#8 = s.sp := BitVec.sub_add_cancel _ _
  rw [returnFromTrap_eq_add_three, hsp, hflags, hlow, hhigh, enterTrap_read_flags, enterTrap_read_returnLow,
    enterTrap_read_returnHigh, pulledFlags_or_breakUnused, wordOf_hiByte_loByte, enterTrap_a, enterTrap_x, enterTrap_y,
    enterTrap_cyc, enterTrap_params]

/-- Settles O40: RTI is trap return, which undoes BRK's trap entry. -/
theorem rtiReturnsPastBrk : Obligations.RtiReturnsPastBrk := by
  intro s
  refine ⟨_, _, exec_brk s, exec_rti _, ?_⟩
  rw [returnFromTrap_setCyc, returnFromTrap_enterTrap]
  exact ⟨rfl, rfl, rfl, rfl, rfl, rfl⟩

end Sys2Proof.Machine
end

section
/-! PROOFS. The loads and stores (46_load_store.md R260 to R265). The three loads are one rule for three register writes,
the three stores one rule for three registers read; which handler a mnemonic has is the only fact proved per mnemonic. -/

namespace Sys2Proof.Machine

/-! ## LDA, LDX and LDY -/

/-- A load gives the operand byte to its register write, sets N and Z from the byte, and has no other effect on the
advanced state (46_load_store.md R260 to R262). -/
theorem exec_loading {i : Instr} {write : State → Byte → State} (s : State)
    (hread : readsByte i.descriptor.mnemonic = true)
    (hf : handlerOf i.descriptor.mnemonic i.descriptor.mode = reading fun v s => (write s v).setP (setNZ s.p v)) :
    ∃ v t, operandByte i s = some v ∧ exec i s = .next t ∧ SetsNZ t.p v ∧ KeepsFlagsExcept s.p t.p [.n, .z] ∧
      t = ((write (advanced i s) v).setP t.p).setCyc ((write (advanced i s) v).cyc + cost i s) := by
  obtain ⟨v, hv⟩ := operandByte_of_readsByte s hread
  exact ⟨v, _, hv, exec_reading hread hf hv, setNZ_setsNZ _ _, setNZ_keepsFlagsExcept _ _, rfl⟩

/-- Settles O41: the three loads have one rule, for the writes of A, X and Y. -/
theorem loadResults : Obligations.LoadResults := fun _ s =>
  ⟨fun hi => exec_loading (write := State.setA) s (by rw [hi]; rfl) (by rw [hi]; rfl),
    fun hi => exec_loading (write := State.setX) s (by rw [hi]; rfl) (by rw [hi]; rfl),
    fun hi => exec_loading (write := State.setY) s (by rw [hi]; rfl) (by rw [hi]; rfl)⟩

/-! ## STA, STX and STY -/

/-- A store is one write to memory at the effective address. The advanced state has the same A, X and Y, which `hreg`
says of the register stored (46_load_store.md R263 to R265). -/
theorem exec_storing {i : Instr} {s : State} {ea : Word} {register : State → Byte}
    (hi : i.descriptor.mnemonic ≠ .unimplemented)
    (hf : handlerOf i.descriptor.mnemonic i.descriptor.mode = storing register)
    (hreg : register (advanced i s) = register s) (hea : operandAddress i s = some ea) :
    exec i s = .next { s with
      mem := s.mem.write ea (register s), pc := pastInstr i s, cyc := s.cyc + cost i s } := by
  rw [exec_eq_execute i s hi, hf, ← hreg]
  exact execute_storing register hea

/-- Settles O42: the three stores have one rule, for three registers, and each of their modes has an address. -/
theorem storeResults : Obligations.StoreResults := by
  intro i s r h
  have hrule : storesAtOperand i.descriptor = true ∧ i.descriptor.mnemonic ≠ .unimplemented ∧
      ∃ register : State → Byte, handlerOf i.descriptor.mnemonic i.descriptor.mode = storing register ∧
        register (advanced i s) = register s ∧ r = register s := by
    rw [storesAtOperand]
    obtain ⟨hi, hr⟩ | ⟨hi, hr⟩ | ⟨hi, hr⟩ := h <;> rw [hi]
    · exact ⟨rfl, Mnemonic.noConfusion, State.a, rfl, rfl, hr⟩
    · exact ⟨rfl, Mnemonic.noConfusion, State.x, rfl, rfl, hr⟩
    · exact ⟨rfl, Mnemonic.noConfusion, State.y, rfl, rfl, hr⟩
  obtain ⟨hstores, hi, register, hf, hreg, rfl⟩ := hrule
  obtain ⟨ea, hea⟩ := operandAddress_of_stores s hstores
  exact ⟨ea, _, hea, exec_storing hi hf hreg hea, Memory.read_write_same _ _ _,
    fun _ hb => Memory.read_write_of_ne _ _ hb, rfl⟩

end Sys2Proof.Machine
end

section
/-! PROOFS. The stack instructions and the register transfers (47_stack_transfer.md R280 to R289). The pushes are one
rule for two bytes. PLA and the transfers but TXS are one rule, a byte put into a register with N and Z of it, for two
parameters: where the byte comes from and what the instruction writes it to. PLP and TXS have an equation each. -/

namespace Sys2Proof.Machine

/-! ## PHA and PHP -/

/-- A push is one write to memory at SP. The advanced state has the same A and P, which `hvalue` says of the byte
pushed (47_stack_transfer.md R280, R281). -/
theorem exec_pushing {i : Instr} {s : State} {value : State → Byte} (hi : i.descriptor.mnemonic ≠ .unimplemented)
    (hf : handlerOf i.descriptor.mnemonic i.descriptor.mode = implied fun s => push (value s) s)
    (hvalue : value (advanced i s) = value s) :
    exec i s = .next { s with
      mem := s.mem.write (stackAddress s.sp) (value s), sp := s.sp - 1#8, pc := pastInstr i s
      cyc := s.cyc + cost i s } :=
  hvalue ▸ exec_implied s hi hf

theorem exec_pha (s : State) : exec .pha s = .next { s with
    mem := s.mem.write (stackAddress s.sp) s.a, sp := s.sp - 1#8, pc := s.pc + 1#16, cyc := s.cyc + 3 } :=
  exec_pushing (i := .pha) (value := State.a) Mnemonic.noConfusion rfl rfl

theorem exec_php (s : State) : exec .php s = .next { s with
    mem := s.mem.write (stackAddress s.sp) (s.p ||| breakUnused), sp := s.sp - 1#8, pc := s.pc + 1#16
    cyc := s.cyc + 3 } :=
  exec_pushing (i := .php) (value := fun s => s.p ||| breakUnused) Mnemonic.noConfusion rfl rfl

/-- Settles O43: PHA and PHP differ in the byte pushed alone, and a push is one write. -/
theorem pushResults : Obligations.PushResults := by
  intro s i v h
  have hexec : exec i s = .next { s with
      mem := s.mem.write (stackAddress s.sp) v, sp := s.sp - 1#8, pc := s.pc + 1#16, cyc := s.cyc + 3 } := by
    obtain ⟨rfl, rfl⟩ | ⟨rfl, rfl⟩ := h
    · exact exec_pha s
    · exact exec_php s
  exact ⟨_, hexec, Memory.read_write_same _ _ _, fun _ hb => Memory.read_write_of_ne _ _ hb, rfl⟩

/-! ## A byte into a register with N and Z -/

/-- An instruction without operand that writes a byte to a register, sets N and Z from the byte and has no other effect
on the advanced state (47_stack_transfer.md R282, R284 to R288). -/
theorem exec_transferring {i : Instr} {write : State → Byte → State} {source : State → Byte} (s : State)
    (hi : i.descriptor.mnemonic ≠ .unimplemented)
    (hf : handlerOf i.descriptor.mnemonic i.descriptor.mode =
      implied fun s => (write s (source s)).setP (setNZ s.p (source s))) :
    ∃ t, exec i s = .next t ∧ SetsNZ t.p (source (advanced i s)) ∧ KeepsFlagsExcept s.p t.p [.n, .z] ∧
      t = ((write (advanced i s) (source (advanced i s))).setP t.p).setCyc
        ((write (advanced i s) (source (advanced i s))).cyc + cost i s) :=
  ⟨_, exec_implied s hi hf, setNZ_setsNZ _ _, setNZ_keepsFlagsExcept _ _, rfl⟩

/-! ## PLA and PLP -/

/-- PLP writes P and SP alone, the byte pulled as PULL_FORCE_BU says (47_stack_transfer.md R283; log 5). -/
theorem exec_plp (s : State) : exec .plp s = .next { s with
    p := pulledFlags s.params (s.mem.read (stackAddress (s.sp + 1#8))), sp := s.sp + 1#8
    pc := s.pc + 1#16, cyc := s.cyc + 4 } :=
  exec_implied (i := .plp) (f := pullFlags) s Mnemonic.noConfusion rfl

/-- Settles O44: PLA puts the popped byte into A with N and Z, past the write of SP. -/
theorem pullResults : Obligations.PullResults := fun s =>
  ⟨exec_transferring (i := .pla) (write := fun s v => (s.setSp (s.sp + 1#8)).setA v) (source := fun s => (pop s).1) s
    Mnemonic.noConfusion rfl, exec_plp s⟩

/-! ## The register transfers -/

/-- TXS writes SP and no flag (47_stack_transfer.md R289). -/
theorem exec_txs (s : State) : exec .txs s = .next { s with sp := s.x, pc := s.pc + 1#16, cyc := s.cyc + 2 } :=
  exec_implied (i := .txs) (f := fun s => s.setSp s.x) s Mnemonic.noConfusion rfl

/-- Settles O45: five transfers have one rule, for their register write and the register they read. -/
theorem transferResults : Obligations.TransferResults := fun s =>
  ⟨exec_transferring (i := .tax) (write := State.setX) (source := State.a) s Mnemonic.noConfusion rfl,
    exec_transferring (i := .txa) (write := State.setA) (source := State.x) s Mnemonic.noConfusion rfl,
    exec_transferring (i := .tay) (write := State.setY) (source := State.a) s Mnemonic.noConfusion rfl,
    exec_transferring (i := .tya) (write := State.setA) (source := State.y) s Mnemonic.noConfusion rfl,
    exec_transferring (i := .tsx) (write := State.setX) (source := State.sp) s Mnemonic.noConfusion rfl,
    exec_txs s⟩

end Sys2Proof.Machine
end

section
/-! PROOFS. The flag instructions, NOP, the stub and the faults of a step (48_flags_nop.md R310 to R318;
60_exceptions.md R340 to R343). `exec_fault_iff` says once when an instruction faults. Every step runs the instruction
its fetch gives, `step_eq_exec`, which is the stub exactly on an unfilled slot. -/

namespace Sys2Proof.Machine

/-! ## The flag instructions and NOP -/

/-- The seven flag instructions have one meaning, for the flag and the value each writes, in 1 byte and 2 cycles
(48_flags_nop.md R310 to R316; 30_encoding.md R96). -/
theorem exec_writing {i : Instr} {f : Flag} {value : Bool} (s : State)
    (h : flagWrite i.descriptor.mnemonic = some (f, value)) :
    exec i s = .next { s with p := setFlag s.p f value, pc := s.pc + 1#16, cyc := s.cyc + 2 } := by
  cases i
  case sec | clc | sed | cld | sei | cli | clv =>
    obtain ⟨rfl, rfl⟩ := Prod.mk.inj (Option.some.inj h)
    rfl
  all_goals cases h

/-- Settles O48: each of the seven is one write of one flag. -/
theorem flagInstructionResults : Obligations.FlagInstructionResults := fun _ s _ _ h =>
  ⟨_, exec_writing s h, getFlag_setFlag_same _ _ _, setFlag_keepsFlagsExcept _ _ _, rfl⟩

/-- Settles O49: NOP has no effect on the advanced state, in 1 byte and 2 cycles by its row. -/
theorem nopResult : Obligations.NopResult := fun s =>
  exec_implied (i := .nop) (f := fun s => s) s Mnemonic.noConfusion rfl

/-! ## The stub -/

/-- The stub under NoOp advances PC past its byte at no cost (48_flags_nop.md R318). -/
theorem exec_stub_noOp_next (opcode : Byte) (s : State) (h : s.params.unimplPolicy = .noOp) :
    exec (.unimplemented opcode) s = .next { s with pc := s.pc + 1#16 } := by
  rw [exec_stub_noOp opcode s h, execute_implied]
  rfl

/-- Settles O50, policy by policy. -/
theorem stubFollowsPolicy : Obligations.StubFollowsPolicy := fun opcode s =>
  ⟨exec_stub_noOp_next opcode s, exec_stub_fault opcode s⟩

/-! ## Faults of an instruction -/

/-- A documented instruction has a next state, whatever the state. -/
theorem exec_next_of_documented {i : Instr} (s : State) (h : i.descriptor.mnemonic ≠ .unimplemented) :
    ∃ t, exec i s = .next t :=
  exec_eq_execute i s h ▸ execute_handlerOf_next i s

/-- An instruction has a next state, or it is the stub under Fault (60_exceptions.md R341). -/
theorem exec_next_or_stub_fault (i : Instr) (s : State) :
    (∃ t, exec i s = .next t) ∨ ∃ opcode, i = .unimplemented opcode ∧ s.params.unimplPolicy = .fault := by
  by_cases hm : i.descriptor.mnemonic = .unimplemented
  · obtain ⟨opcode, rfl⟩ := eq_unimplemented hm
    cases hp : s.params.unimplPolicy with
    | fault => exact .inr ⟨opcode, rfl, rfl⟩
    | noOp => exact .inl ⟨_, exec_stub_noOp_next opcode s hp⟩
  · exact .inl (exec_next_of_documented s hm)

/-- An instruction faults exactly as the stub under Fault does. -/
theorem exec_fault_iff {i : Instr} {s : State} {r : Fault} :
    exec i s = .fault r ↔ ∃ opcode, i = .unimplemented opcode ∧ s.params.unimplPolicy = .fault ∧
      r = .unimplementedOpcode opcode s.pc := by
  constructor
  · intro h
    obtain ⟨t, ht⟩ | ⟨opcode, rfl, hp⟩ := exec_next_or_stub_fault i s
    · cases ht.symm.trans h
    · exact ⟨opcode, rfl, hp, Host.Outcome.fault.inj (h.symm.trans (exec_stub_fault opcode s hp))⟩
  · rintro ⟨opcode, rfl, hp, rfl⟩
    exact exec_stub_fault opcode s hp

theorem exec_ne_refused (i : Instr) (s : State) (r : Refusal) : exec i s ≠ .refused r := by
  intro h
  obtain ⟨t, ht⟩ | ⟨opcode, rfl, hp⟩ := exec_next_or_stub_fault i s
  · cases ht.symm.trans h
  · cases (exec_stub_fault opcode s hp).symm.trans h

/-! ## Faults of a step -/

/-- A step runs the instruction whose bytes stand at PC (30_encoding.md R112). -/
theorem step_eq_exec (s : State) : step s = exec (instrAt s.mem s.pc) s := by
  rw [step, decodeAt_eq_ok]

/-- A fetch gives the stub exactly on an unfilled slot, and then the stub of that slot's byte
(30_encoding.md R95, R97). -/
theorem instrAt_eq_unimplemented_iff (m : Memory) (address : Word) (opcode : Byte) :
    instrAt m address = .unimplemented opcode ↔ m.read address ∈ unfilledOpcodes ∧ opcode = m.read address := by
  rw [instrAt]
  constructor
  · intro h
    have hd := descriptor_decodeBytes (m.read address) (m.read (address + 1#16)) (m.read (address + 2#16))
    rw [h] at hd
    exact ⟨(slotDescriptor_mnemonic_eq_unimplemented_iff _).1 (congrArg Descriptor.mnemonic hd).symm,
      (congrArg Descriptor.opcode hd).trans (slotDescriptor_opcode _)⟩
  · rintro ⟨hmem, rfl⟩
    exact decodeBytes_of_mem_unfilledOpcodes hmem _ _

/-- Settles O51: only the stub under Fault faults, and the fetch gives the stub on the unfilled slots alone. -/
theorem stepFaultsExactlyOnUnfilledSlots : Obligations.StepFaultsExactlyOnUnfilledSlots := by
  refine ⟨fun s r => ?_, fun s r => ?_, fun s address => ?_⟩
  · rw [step_eq_exec, exec_fault_iff]
    simp only [instrAt_eq_unimplemented_iff]
    constructor
    · rintro ⟨opcode, ⟨hmem, rfl⟩, hp, hr⟩
      exact ⟨hp, hmem, hr⟩
    · rintro ⟨hp, hmem, hr⟩
      exact ⟨_, ⟨hmem, rfl⟩, hp, hr⟩
  · rw [step_eq_exec]
    exact exec_ne_refused _ s r
  · rw [preview, decodeAt_eq_ok]
    exact ⟨_, rfl, rfl⟩

end Sys2Proof.Machine
end

section
/-! PROOFS. What no instruction reads (10_state.md R25, R31; 60_exceptions.md R344; 70_reset_and_hazards.md R375). An
instruction started with another cycle count and with other values in flags it does not read runs in the same way: the
count is shifted, and P differs in those flags at most. The case split over the mnemonics is made once, in
`handlerOf_ignores`. With no flag it says that no rule reads CYC, with I that I masks nothing. -/

namespace Sys2Proof.Machine

/-! ## Flags that differ before and after a write -/

namespace KeepsFlagsExcept
variable {p q : Byte} {fs : List Flag}

theorem eq_of_nil (h : KeepsFlagsExcept p q []) : q = p := flags_ext fun f => h f List.not_mem_nil

/-- Two bytes that agree outside some flags still do after the same write of a flag. -/
theorem setFlag (h : KeepsFlagsExcept p q fs) (f : Flag) (v : Bool) :
    KeepsFlagsExcept (setFlag p f v) (setFlag q f v) fs := fun g hg => by
  rw [getFlag_setFlag, getFlag_setFlag, h g hg]

theorem setNZ (h : KeepsFlagsExcept p q fs) (v : Byte) : KeepsFlagsExcept (setNZ p v) (setNZ q v) fs :=
  (h.setFlag .n _).setFlag .z _

theorem setNZC (h : KeepsFlagsExcept p q fs) (v : Byte) (c : Bool) :
    KeepsFlagsExcept (setNZC p v c) (setNZC q v c) fs :=
  (h.setNZ v).setFlag .c c

theorem setNVZC (h : KeepsFlagsExcept p q fs) (r : AluResult) : KeepsFlagsExcept (setNVZC p r) (setNVZC q r) fs :=
  (((h.setFlag .n _).setFlag .v _).setFlag .z _).setFlag .c _

theorem bitFlags (h : KeepsFlagsExcept p q fs) (a v : Byte) : KeepsFlagsExcept (bitFlags p a v) (bitFlags q a v) fs :=
  ((h.setFlag .z _).setFlag .n _).setFlag .v _

theorem or_breakUnused (h : KeepsFlagsExcept p q fs) : KeepsFlagsExcept (p ||| breakUnused) (q ||| breakUnused) fs :=
  fun g hg => by rw [getFlag_force, getFlag_force, h g hg]

end KeepsFlagsExcept

/-! ## Meanings that ignore the cycle count and some flags -/

/-- The instructions that read a flag: ADC and SBC, the rotates, the branches on it, and PHP and BRK, which copy the
whole byte (10_state.md R24 to R27). -/
def Flag.readers : Flag → List Mnemonic
  | .c => [.adc, .sbc, .rol, .ror, .bcc, .bcs, .php, .brk]
  | .d => [.adc, .sbc, .php, .brk]
  | .n => [.bpl, .bmi, .php, .brk]
  | .v => [.bvc, .bvs, .php, .brk]
  | .z => [.bne, .beq, .php, .brk]
  | .i | .b | .u => [.php, .brk]

/-- From another cycle count, and from a P that differs in the flags at most, the update gives the same state but for
that count and those flags. -/
def UpdateIgnores (fs : List Flag) (f : State → State) : Prop :=
  ∀ s p c, KeepsFlagsExcept s.p p fs →
    ∃ q, KeepsFlagsExcept (f s).p q fs ∧ f ((s.setP p).setCyc c) = ((f s).setP q).setCyc c

/-- On a decoded instruction, the handler has the same result from another cycle count and from a P that differs in the
flags at most, but for that count and those flags. -/
def Handler.Ignores (h : Handler) (d : Decoded) (fs : List Flag) : Prop :=
  ∀ s p c s2 extra, KeepsFlagsExcept s.p p fs → h d s = some (s2, extra) →
    ∃ q, KeepsFlagsExcept s2.p q fs ∧ h d ((s.setP p).setCyc c) = some ((s2.setP q).setCyc c, extra)

section Operands
variable (d : Decoded) (s : State) (p : Byte) (c : Nat)

/-- Resolution reads neither P nor CYC (30_encoding.md R99 to R106). -/
theorem effectiveAddress_setP_setCyc : effectiveAddress d ((s.setP p).setCyc c) = effectiveAddress d s := rfl

/-- The decoded value comes from A, the operand and memory (30_encoding.md R108). -/
theorem decodedValue_setP_setCyc : decodedValue d ((s.setP p).setCyc c) = decodedValue d s := rfl

end Operands

section Shapes
variable {d : Decoded} {fs : List Flag}

theorem implied_ignores {f : State → State} (hf : UpdateIgnores fs f) : (implied f).Ignores d fs := by
  intro s p c s2 extra hp h
  obtain ⟨rfl, rfl⟩ := Prod.mk.inj (Option.some.inj h)
  obtain ⟨q, hq, heq⟩ := hf s p c hp
  exact ⟨q, hq, by rw [implied, heq]⟩

theorem reading_ignores {f : Byte → State → State} (hf : ∀ v, UpdateIgnores fs (f v)) :
    (reading f).Ignores d fs := by
  intro s p c s2 extra hp h
  obtain ⟨v, hv, rfl, rfl⟩ := reading_some h
  obtain ⟨q, hq, heq⟩ := hf v s p c hp
  exact ⟨q, hq, by simp only [reading, decodedValue_setP_setCyc, hv, heq]⟩

theorem storing_ignores {f : State → Byte} (hf : ∀ s p c, f ((s.setP p).setCyc c) = f s) :
    (storing f).Ignores d fs := by
  intro s p c s2 extra hp h
  obtain ⟨ea, hea, rfl, rfl⟩ := storing_some h
  exact ⟨p, hp, by simp only [storing, effectiveAddress_setP_setCyc, hea, hf]; rfl⟩

theorem jumping_ignores {f : State → State} (hf : UpdateIgnores fs f) : (jumping f).Ignores d fs := by
  intro s p c s2 extra hp h
  obtain ⟨ea, hea, rfl, rfl⟩ := jumping_some h
  obtain ⟨q, hq, heq⟩ := hf s p c hp
  exact ⟨q, hq, by simp only [jumping, effectiveAddress_setP_setCyc, hea, heq]; rfl⟩

theorem jumpingByValue_ignores : jumpingByValue.Ignores d fs := by
  intro s p c s2 extra hp h
  obtain ⟨w, hw, rfl, rfl⟩ := jumpingByValue_some h
  exact ⟨p, hp, by simp only [jumpingByValue, decodedValue_setP_setCyc, hw]; rfl⟩

theorem branching_ignores {f : Flag} (value : Bool) (hf : f ∉ fs) : (branching f value).Ignores d fs := by
  intro s p c s2 extra hp h
  have hflag : ((s.setP p).setCyc c).flag f = s.flag f := hp f hf
  obtain ⟨hvalue, rfl, rfl⟩ | ⟨hvalue, rfl, rfl⟩ := branching_some h
  · exact ⟨p, hp, branching_of_eq d (hflag.trans hvalue)⟩
  · exact ⟨p, hp, branching_of_ne d (hflag ▸ hvalue)⟩

/-- The write-back puts one byte where it did, whatever P and CYC are (30_encoding.md R109). -/
theorem storeResult_setP_setCyc {ea : Option Word} {r : Byte} {s s1 : State} (h : storeResult d ea r s = some s1)
    (p : Byte) (c : Nat) : storeResult d ea r ((s.setP p).setCyc c) = some ((s1.setP p).setCyc c) := by
  obtain ⟨hm, rfl⟩ | ⟨a, rfl, hm, rfl⟩ := storeResult_some h
  · exact storeResult_accumulator hm _ _ _
  · exact storeResult_memory hm _ _ _

theorem modifying_ignores {f : Byte → Byte → Byte × Byte}
    (hf : ∀ v p q, KeepsFlagsExcept p q fs → (f v q).1 = (f v p).1 ∧ KeepsFlagsExcept (f v p).2 (f v q).2 fs) :
    (modifying f).Ignores d fs := by
  intro s p c s2 extra hp h
  obtain ⟨v, s1, hv, hst, rfl, rfl⟩ := modifying_some h
  obtain ⟨hresult, hflags⟩ := hf v s.p p hp
  rw [← hresult] at hst
  exact ⟨(f v p).2, hflags, modifying_eq_some (s := (s.setP p).setCyc c) hv (storeResult_setP_setCyc hst p c)⟩

/-- A shift ignores the flags if its shifting function reads no C, or a C outside them. -/
theorem shifting_ignores {f : Byte → Bool → Byte × Bool}
    (hf : ∀ v p q, KeepsFlagsExcept p q fs → f v (getFlag q .c) = f v (getFlag p .c)) :
    (modifying (shifting f)).Ignores d fs := by
  refine modifying_ignores fun v p q hp => ?_
  rw [shifting, shifting, hf v p q hp]
  exact ⟨rfl, hp.setNZC _ _⟩

/-- An ALU result of A, C and D is the same where C and D are (40_arith.md R130 to R133). -/
theorem setAlu_ignores {r : Byte → Bool → Bool → AluResult} (hc : .c ∉ fs) (hd : .d ∉ fs) :
    UpdateIgnores fs fun s => s.setAlu (r s.a (s.flag .c) (s.flag .d)) := by
  intro s p c hp
  have hcarry : ((s.setP p).setCyc c).flag .c = s.flag .c := hp .c hc
  have hdecimal : ((s.setP p).setCyc c).flag .d = s.flag .d := hp .d hd
  refine ⟨_, hp.setNVZC _, ?_⟩
  dsimp only
  rw [hcarry, hdecimal]
  rfl

/-- Where no flag may differ, the cycle count is all there is to ignore. -/
theorem updateIgnores_nil {f : State → State} (hf : ∀ s c, f (s.setCyc c) = (f s).setCyc c) : UpdateIgnores [] f := by
  intro s p c hp
  obtain rfl := hp.eq_of_nil
  exact ⟨_, fun _ _ => rfl, hf s c⟩

end Shapes

/-- The handler of a mnemonic ignores CYC and every flag that the mnemonic is no listed reader of, in every mode. -/
theorem handlerOf_ignores {m : Mnemonic} {fs : List Flag} (h : ∀ f : Flag, m ∈ f.readers → f ∉ fs) (mode : Mode)
    (d : Decoded) : (handlerOf m mode).Ignores d fs := by
  cases m with
  | adc =>
    exact reading_ignores fun v => setAlu_ignores (h .c (by decide)) (h .d (by decide))
      (r := fun a c d => if d then addDecimal a v c else addBinary a v c)
  | sbc =>
    exact reading_ignores fun v => setAlu_ignores (h .c (by decide)) (h .d (by decide))
      (r := fun a c d => if d then subDecimal a v c else subBinary a v c)
  | and | ora | eor | lda | ldx | ldy => exact reading_ignores fun _ _ _ _ hp => ⟨_, hp.setNZ _, rfl⟩
  | bit => exact reading_ignores fun v _ _ _ hp => ⟨_, hp.bitFlags _ v, rfl⟩
  | cmp | cpx | cpy => exact reading_ignores fun _ _ _ _ hp => ⟨_, hp.setNZC _ _, rfl⟩
  | asl => exact shifting_ignores (f := shiftAsl) fun _ _ _ _ => rfl
  | lsr => exact shifting_ignores (f := shiftLsr) fun _ _ _ _ => rfl
  | rol => exact shifting_ignores fun v _ _ hp => congrArg (shiftRol v) (hp .c (h .c (by decide)))
  | ror => exact shifting_ignores fun v _ _ hp => congrArg (shiftRor v) (hp .c (h .c (by decide)))
  | dec => exact modifying_ignores (f := decrement) fun _ _ _ hp => ⟨rfl, hp.setNZ _⟩
  | inc => exact modifying_ignores (f := increment) fun _ _ _ hp => ⟨rfl, hp.setNZ _⟩
  | sta | stx | sty => exact storing_ignores fun _ _ _ => rfl
  | bpl | bmi | bvc | bvs | bcc | bcs | bne | beq => exact branching_ignores _ (h _ (by decide))
  | jmp =>
    rw [handlerOf]
    split
    · exact jumpingByValue_ignores
    · exact jumping_ignores fun _ p _ hp => ⟨p, hp, rfl⟩
  | jsr => exact jumping_ignores fun _ p _ hp => ⟨p, hp, rfl⟩
  | rts | pha | txs | nop | unimplemented => exact implied_ignores fun _ p _ hp => ⟨p, hp, rfl⟩
  | rti | plp => exact implied_ignores fun _ _ _ _ => ⟨_, fun _ _ => rfl, rfl⟩
  | pla | tax | txa | tay | tya | tsx | dex | dey | inx | iny =>
    exact implied_ignores fun _ _ _ hp => ⟨_, hp.setNZ _, rfl⟩
  | sec | clc | sed | cld | sei | cli | clv => exact implied_ignores fun _ _ _ hp => ⟨_, hp.setFlag _ _, rfl⟩
  | php | brk =>
    obtain rfl : fs = [] := List.eq_nil_iff_forall_not_mem.2 fun f => h f (by cases f <;> decide)
    exact implied_ignores (updateIgnores_nil fun _ _ => rfl)

/-! ## Instructions -/

/-- Where an instruction has a next state, it is the common part of a step around its mnemonic's handler from every
state with the same parameters (30_encoding.md R112; 48_flags_nop.md R318). -/
theorem exec_eq_execute_of_next {i : Instr} {s t u : State} (h : exec i s = .next t) (hu : u.params = s.params) :
    exec i u = execute i (handlerOf i.descriptor.mnemonic i.descriptor.mode) u := by
  by_cases hm : i.descriptor.mnemonic = .unimplemented
  · obtain ⟨opcode, rfl⟩ := eq_unimplemented hm
    cases hp : s.params.unimplPolicy with
    | fault => cases (exec_stub_fault opcode s hp).symm.trans h
    | noOp => exact exec_stub_noOp opcode u (hu ▸ hp)
  · exact exec_eq_execute i u hm

/-- The handlers leave CYC to the common part of the step (30_encoding.md R113). -/
theorem handlerOf_keeps_cyc {m : Mnemonic} {mode : Mode} {d : Decoded} {s s2 : State} {extra : Nat}
    (h : handlerOf m mode d s = some (s2, extra)) : s2.cyc = s.cyc := by
  by_cases hb : branchTest m = none
  · exact (handlerOf_addsAtMost_zero mode hb d s s2 extra h).1
  · exact (handlerOf_addsAtMost_two mode hb d s s2 extra h).1

/-- An instruction started with another cycle count and another value in flags it does not read has the same next
state, but for the count, shifted by the cycles of the instruction, and those flags. -/
theorem exec_next_ignores {i : Instr} {s t : State} {fs : List Flag} {p : Byte} (n : Nat)
    (hreads : ∀ f : Flag, i.descriptor.mnemonic ∈ f.readers → f ∉ fs) (hp : KeepsFlagsExcept s.p p fs)
    (h : exec i s = .next t) :
    ∃ k q, t.cyc = s.cyc + k ∧ KeepsFlagsExcept t.p q fs ∧
      exec i ((s.setP p).setCyc n) = .next ((t.setP q).setCyc (n + k)) := by
  obtain ⟨s2, extra, hd, rfl⟩ := (execute_next_iff _ _ _ _).1 (execute_handlerOf_of_exec_next h)
  obtain ⟨q, hq, hd'⟩ := handlerOf_ignores hreads _ _ (advanced i s) p n s2 extra hp hd
  have hcyc : s2.cyc = s.cyc := handlerOf_keeps_cyc (s := advanced i s) hd
  refine ⟨i.descriptor.baseCycles + (pageCycles (i.decodedAt s.pc) (advanced i s) + extra), q, ?_, hq, ?_⟩
  · rw [State.setCyc_cyc, hcyc]
    rfl
  · rw [exec_eq_execute_of_next h (u := (s.setP p).setCyc n) rfl]
    exact (execute_next_iff _ _ _ _).2 ⟨_, extra, hd', rfl⟩

/-- A fault of an instruction carries the opcode byte and PC, and depends on the policy alone
(60_exceptions.md R341). -/
theorem exec_fault_ignores {i : Instr} {s : State} {r : Fault} (p : Byte) (n : Nat) (h : exec i s = .fault r) :
    exec i ((s.setP p).setCyc n) = .fault r :=
  exec_fault_iff.2 (exec_fault_iff (s := s).1 h)

/-- Settles O56: the step runs the instruction fetched from the same memory at the same PC, and with no flag left to
differ the next state differs in the cycle count alone. -/
theorem cycleCountDecidesNothing : Obligations.CycleCountDecidesNothing := by
  intro s n
  have hstep : step (s.setCyc n) = exec (instrAt s.mem s.pc) ((s.setP s.p).setCyc n) := step_eq_exec _
  rw [step_eq_exec, hstep]
  refine ⟨fun t h => ?_, fun r => exec_fault_ignores s.p n⟩
  obtain ⟨k, q, hcyc, hq, hexec⟩ := exec_next_ignores n (fun _ _ => List.not_mem_nil) (fun _ _ => rfl) h
  obtain rfl := hq.eq_of_nil
  exact ⟨k, hcyc, hexec⟩

/-! ## The I flag -/

/-- PHP and BRK alone read I, and only to push it (10_state.md R25; 60_exceptions.md R344). -/
theorem eq_php_or_brk_of_mem_readers_i {i : Instr} (h : i.descriptor.mnemonic ∈ Flag.readers .i) :
    i = .php ∨ i = .brk := by
  simp only [Flag.readers, List.mem_cons, List.not_mem_nil, or_false] at h
  cases i
  case php => exact .inl rfl
  case brk => exact .inr rfl
  all_goals obtain h | h := h <;> cases h

/-- Two writes of one address differ there alone. -/
theorem sameExceptAt_write_write (m : Memory) (a : Word) (v w : Byte) : SameExceptAt (m.write a v) (m.write a w) a :=
  fun b hb => by rw [Memory.read_write_of_ne _ _ hb, Memory.read_write_of_ne _ _ hb]

/-- A copy of P with B and U forced holds I as P does (10_state.md R27). -/
theorem getFlag_or_breakUnused_i (p : Byte) : getFlag (p ||| breakUnused) .i = getFlag p .i := by
  simp [getFlag_force]

/-- A push of P on two states whose P differs in I gives memories that differ in bit 2 of the byte pushed. -/
theorem pushed_flags_differ_in_i {m mt mu : Memory} {a : Word} {p : Byte} {b : Bool}
    (ht : mt = m.write a (p ||| breakUnused)) (hu : mu = m.write a (setFlag p .i b ||| breakUnused)) :
    SameExceptAt mt mu a ∧ KeepsFlagsExcept (mt.read a) (mu.read a) [.i] ∧
      getFlag (mt.read a) .i = getFlag p .i ∧ getFlag (mu.read a) .i = b := by
  subst ht hu
  rw [Memory.read_write_same, Memory.read_write_same, getFlag_or_breakUnused_i, getFlag_or_breakUnused_i,
    getFlag_setFlag_same]
  exact ⟨sameExceptAt_write_write _ _ _ _, (setFlag_keepsFlagsExcept p .i b).or_breakUnused, rfl, rfl⟩

/-- From any other P, the instruction has the same next state but for P, where the flags may differ that differed
before, and for the copy of P with B and U forced that it stores last, at the address (10_state.md R27). -/
def PushesFlagsAt (i : Instr) (s : State) (a : Word) : Prop :=
  ∀ q fs, KeepsFlagsExcept s.p q fs → ∃ (m : Memory) (t u : State), exec i s = .next t ∧ exec i (s.setP q) = .next u ∧
    u = { t with p := u.p, mem := u.mem } ∧ KeepsFlagsExcept t.p u.p fs ∧
    t.mem = m.write a (s.p ||| breakUnused) ∧ u.mem = m.write a (q ||| breakUnused)

theorem php_pushesFlagsAt (s : State) : PushesFlagsAt .php s (stackAddress s.sp) := fun q _ hq =>
  ⟨_, _, _, exec_php s, exec_php (s.setP q), rfl, hq, rfl, rfl⟩

/-- The vector is not on the stack page. -/
theorem readWord_brkVector_of_sameExceptAt {m m' : Memory} {sp : Byte} (h : SameExceptAt m m' (stackAddress sp)) :
    m'.readWord Config.brkVector = m.readWord Config.brkVector := by
  have hpage {a : Word} (ha : hiByte a ≠ 0x01#8) : a ≠ stackAddress sp := fun he => ha (he ▸ hiByte_stackAddress sp)
  rw [readWord_brkVector, readWord_brkVector, h _ (hpage (by decide)), h _ (hpage (by decide))]

theorem brk_pushesFlagsAt (s : State) : PushesFlagsAt .brk s (stackAddress (s.sp - 2#8)) := by
  intro q fs hq
  have ht := enterTrap_mem_eq (s.pc + 2#16) Config.brkVector s
  have hu := enterTrap_mem_eq (s.pc + 2#16) Config.brkVector (s.setP q)
  have hpc : (enterTrap (s.pc + 2#16) Config.brkVector (s.setP q)).pc =
      (enterTrap (s.pc + 2#16) Config.brkVector s).pc := by
    rw [enterTrap_pc, enterTrap_pc, ht, hu]
    exact readWord_brkVector_of_sameExceptAt (sameExceptAt_write_write _ _ _ _)
  refine ⟨_, _, _, exec_brk s, exec_brk (s.setP q), ?_, (hq.setFlag .b true).setFlag .i true, ht, hu⟩
  exact State.ext_fields rfl rfl rfl rfl hpc rfl rfl rfl rfl

/-- Settles O57: PHP and BRK push their copy of P last, to different addresses; every other instruction ignores I. -/
theorem interruptFlagMasksNothing : Obligations.InterruptFlagMasksNothing := by
  intro i s b
  have hi : KeepsFlagsExcept s.p (setFlag s.p .i b) [.i] := setFlag_keepsFlagsExcept s.p .i b
  refine ⟨fun t hphp hbrk h => ?_, fun t pushed hpushed h => ?_, fun r => exec_fault_ignores _ s.cyc⟩
  · have hreads (f : Flag) (hf : i.descriptor.mnemonic ∈ f.readers) : f ∉ [.i] := by
      intro hfi
      obtain rfl := List.mem_singleton.1 hfi
      exact (eq_php_or_brk_of_mem_readers_i hf).elim hphp hbrk
    obtain ⟨k, q, hcyc, hq, hexec⟩ := exec_next_ignores s.cyc hreads hi h
    rw [← hcyc] at hexec
    exact ⟨_, hexec, rfl, hq⟩
  · have hpushes : PushesFlagsAt i s pushed := by
      obtain ⟨rfl, rfl⟩ | ⟨rfl, rfl⟩ := hpushed
      · exact php_pushesFlagsAt s
      · exact brk_pushesFlagsAt s
    obtain ⟨m, t', u, ht, hu, heq, hflags, htmem, humem⟩ := hpushes _ _ hi
    obtain rfl := Host.Outcome.next.inj (ht.symm.trans h)
    exact ⟨u, hu, heq, hflags, pushed_flags_differ_in_i htmem humem⟩

end Sys2Proof.Machine
end

section
/-! PROOFS. Construction and the reset operation (70_reset_and_hazards.md R370, R371). Construction is a reset of a
state whose other fields it gives, so both have their values from one equation per field of `hostReset`. -/

namespace Sys2Proof.Machine

section Reset
variable (s : State)

@[simp] theorem hostReset_pc : (hostReset s).pc = s.params.startPc := rfl
@[simp] theorem hostReset_sp : (hostReset s).sp = 0xFF#8 := rfl
@[simp] theorem hostReset_a : (hostReset s).a = 0x00#8 := rfl
@[simp] theorem hostReset_x : (hostReset s).x = 0x00#8 := rfl
@[simp] theorem hostReset_y : (hostReset s).y = 0x00#8 := rfl
@[simp] theorem hostReset_p : (hostReset s).p = s.p := rfl
@[simp] theorem hostReset_mem : (hostReset s).mem = s.mem := rfl

end Reset

/-- Settles O14, field by field. -/
theorem resetOperation : Obligations.ResetOperation := fun s =>
  ⟨hostReset s, rfl, hostReset_pc s, hostReset_sp s, hostReset_a s, hostReset_x s, hostReset_y s, hostReset_p s,
    hostReset_cyc s, hostReset_mem s, hostReset_params s⟩

/-- Settles O13: construction is a reset. -/
theorem constructionValues : Obligations.ConstructionValues := by
  intro mem params
  rw [construct]
  exact ⟨hostReset_pc _, hostReset_sp _, hostReset_a _, hostReset_x _, hostReset_y _, hostReset_p _, hostReset_cyc _,
    hostReset_mem _, hostReset_params _⟩

/-- Settles O11: an empty memory is canonical, and the state after reset is what construction gives by definition. -/
theorem resetMeetsInvariant : Obligations.ResetMeetsInvariant := ⟨rfl, rfl⟩

end Sys2Proof.Machine
end
